-- ==== Sys2Proof/Word.lean ====
section
/-!
DEFINITION. The number types of the LR-6 model and their plainest arithmetic.

The manual's bits are bytes on a link and the wrapping tick count; everything else it counts is a number.
-/
namespace Sys2Proof

/-- One byte of a frame. -/
abbrev Byte := BitVec 8

/-- A value of the tick count, 0 to 2^48 − 1, wrapping (R171). -/
abbrev Tick := BitVec 48

/-- A volume serial: six characters, each 0–9 or A–Z, read as six base-36 digits, so that the order of R3 is the
order of the numbers. -/
abbrev Serial := Fin 2176782336

/-- A channel path, 0–3. -/
abbrev Path := Fin 4

/-- A drive number, 0–31 (R1). -/
abbrev DriveNo := Fin 32

/-- A task record number, 0–47 (R44). -/
abbrev TaskNo := Fin 48

/-- A cell number, bay × 16 + position (R1); `validCell` says which numbers name a storage cell. -/
abbrev CellNo := Nat

/-- A saturating sum: it stops at `cap` (Conventions, "Saturating and wrapping"). -/
def satAdd (cap a b : Nat) : Nat := min cap (a + b)

/-- The tick count `now` has reached tick `t`: it lies less than half the count's range past it (R171). -/
def reached (now t : Tick) : Bool := (now - t).toNat < 2 ^ 47

/-- A count of ticks, as a distance on the tick count. -/
def ticks (n : Nat) : Tick := BitVec.ofNat 48 n

/-- The ticks from `a` to `b`. -/
def elapsed (a b : Tick) : Nat := (b - a).toNat

/-- Writing one entry of a table of fixed size. -/
def vset {α : Type} {n : Nat} (v : Vector α n) (i : Fin n) (a : α) : Vector α n := v.set i.val a i.isLt

end Sys2Proof
end

