-- ==== Sys2Proof/Syntax.lean ====
section
/-!
DEFINITION. The commands the LR-6 takes from outside: one constructor of `Instr` per row of spec/opcode_table.json.

A command is one arrival, expiry or completion of the manual ("Events", chapter About This Manual). Its operands are
the fields of the frame that carries it, at the widths of Chapter 11: an operand the part itself judges (a serial, a
drive byte, a set letter) is kept as the byte it arrives as; an operand the receiver has already judged (a station, a
report's readings: R213, R231) is typed.
-/
namespace Sys2Proof

/-- The two serial frame links. -/
inductive Link where
  | C | M
deriving DecidableEq, Repr

/-- The two accessors, at stations 1 and 2. -/
inductive Acc where
  | A | B
deriving DecidableEq, Repr

def Acc.other : Acc → Acc
  | .A => .B
  | .B => .A

/-- The two operator consoles, at stations 4 and 5. -/
inductive Console where
  | one | two
deriving DecidableEq, Repr

/-- What a label device read from a gripped reel (R86). -/
inductive Label where
  | serial (s : Serial) | unreadable
deriving DecidableEq, Repr

/-- One audit or gripper reading (R86, R231). -/
inductive Reading where
  | empty | serial (s : Serial) | unreadable
deriving DecidableEq, Repr

/-- What every ORDER and MGMT frame carries besides its fields: the path of its address field, its tag, and whether
the payload has the length its kind or command requires (R28, R232, R234). -/
structure Hdr where
  path : Path
  tag : Byte
  sized : Bool
deriving DecidableEq, Repr

/-- The fields of a KEY frame after its code: the number keyed (FFh for none) and the prompt number the console
shows (0 for none) (R160, R231). -/
structure Keyed where
  console : Console
  number : Byte
  prompt : BitVec 16
deriving DecidableEq, Repr

/-- The fields of LOAD VOLUME as R234 lays them out. -/
structure VolumeFields where
  serial : List Byte
  cls : Byte
  home : BitVec 16
  locKind : Byte
  locNum : BitVec 16
  ring : Byte
  flags : Byte
  mounts : BitVec 16
  footage : BitVec 32
  fails : Byte
deriving DecidableEq, Repr

/-- The three parts of FENCE WRITE and FENCE PERSIST; a part not carried is all bytes FFh (R137, R234). -/
structure FenceFields where
  index : Byte
  first : List Byte
  last : List Byte
  enabled : Byte
  invert : Byte
  mode : Byte
deriving DecidableEq, Repr

/-- The commands: one constructor per row of spec/opcode_table.json, in the table's order. -/
inductive Instr where
  /-- POWER_ON: power-on, with the image-skip strap as sampled (R223). -/
  | powerOn (strap : Bool)
  /-- HARD_RESET: release of the reset pin, with the strap as sampled (R223). -/
  | hardReset (strap : Bool)
  /-- IMAGE_READ: the bytes read from the serial memory (R224, R235). -/
  | imageRead (image : List Byte)
  | imageReadTimeout
  | dayClockMinute
  /-- MALFORMED_FRAME: the bytes that arrived after a start delimiter, still escaped (R213, R230). -/
  | malformedFrame (link : Link) (bytes : List Byte)
  | mount (h : Hdr) (serial : List Byte) (drive intent account : Byte)
  | mountScratch (h : Hdr) (drive account : Byte)
  | dismount (h : Hdr) (drive : Byte)
  | cancel (h : Hdr) (target : Byte)
  | queryVolume (h : Hdr) (serial : List Byte)
  | queryDrive (h : Hdr) (drive : Byte)
  | admission
  | recoveryTaskCreation
  | refileTaskCreation
  | arrived (acc : Acc) (tag : Byte)
  | picked (acc : Acc) (tag : Byte) (label : Label)
  | gripMiss (acc : Acc) (tag : Byte)
  | placed (acc : Acc) (tag : Byte)
  | placeBlocked (acc : Acc) (tag : Byte)
  | readDone (acc : Acc) (tag : Byte) (readings : List Reading)
  | recovered (acc : Acc) (tag : Byte) (bay : Byte) (gripper : Reading)
  | motor (acc : Acc) (tag : Byte)
  | labelDevice (acc : Acc) (tag : Byte)
  | stepDeadlineExpiry (acc : Acc)
  | tenureExpiry
  | legPromotion
  | ready (drive : DriveNo)
  | threadFail (drive : DriveNo)
  | unloaded (drive : DriveNo) (footage : BitVec 16) (blocksRead blocksWritten : BitVec 24)
  | online (drive : DriveNo)
  | offline (drive : DriveNo)
  | check (drive : DriveNo)
  | doneKey (k : Keyed)
  | cancelKey (k : Keyed)
  | skipKey (k : Keyed)
  | holdKey (k : Keyed)
  | enterKey (k : Keyed)
  | switchRun (k : Keyed)
  | switchMaintain (k : Keyed)
  | promptEscalation (prompt : BitVec 16)
  | promptDeadlineExpiry (prompt : BitVec 16)
  | doorOpen
  | doorClosed
  | quietTimerExpiry
  | persistCompletion
  | auditIntervalExpiry
  | unknownCommand (h : Hdr) (code : Byte)
  | loadVolume (h : Hdr) (f : VolumeFields)
  | deleteVolume (h : Hdr) (serial : List Byte)
  | setVolumeFlags (h : Hdr) (serial : List Byte) (setFlags clearFlags : Byte)
  | readVolume (h : Hdr) (serial : List Byte)
  | readNextVolume (h : Hdr) (serial : List Byte)
  | readCell (h : Hdr) (cell : BitVec 16)
  | readSlot (h : Hdr) (rack slot : Byte)
  | readPool (h : Hdr) (index : BitVec 16)
  | fenceWrite (h : Hdr) (f : FenceFields)
  | fencePersist (h : Hdr) (f : FenceFields)
  | readFence (h : Hdr)
  | setWearLimits (h : Hdr) (mountLimit : BitVec 16) (failLimit : Byte)
  | readWearLimits (h : Hdr)
  | setPace (h : Hdr) (letter n hyst : Byte)
  | eject (h : Hdr) (serial : List Byte)
  | readTask (h : Hdr) (record : Byte)
  | setTenure (h : Hdr) (tenure : BitVec 16)
  | readAccessor (h : Hdr) (acc : Byte)
  | readLeg (h : Hdr) (index : Byte)
  | loadDrive (h : Hdr) (drive present mask : Byte) (interval : BitVec 32) (clear : Byte)
  | readDrive (h : Hdr) (drive : Byte)
  | setPromptTimes (h : Hdr) (kind : Byte) (deadline escalation : BitVec 16) (urgency : Byte)
  | loadTemplate (h : Hdr) (number : Byte) (line1 line2 : List Byte)
  | readPrompt (h : Hdr) (collection index : Byte)
  | readConsole (h : Hdr) (console : Byte)
  | readTemplate (h : Hdr) (number : Byte)
  | readPromptTimes (h : Hdr) (kind : Byte)
  | setTimeBase (h : Hdr) (prescale : Byte) (divisor : BitVec 16)
  | setClock (h : Hdr) (minute : BitVec 16)
  | readClock (h : Hdr)
  | loadRate (h : Hdr) (cls : Byte) (fee granule price wear : BitVec 16)
  | readRate (h : Hdr) (cls : Byte)
  | loadShifts (h : Hdr) (periods : List (BitVec 16 × Byte))
  | readShifts (h : Hdr)
  | loadAccount (h : Hdr) (account cls : Byte) (allowance : BitVec 32)
  | clearAccount (h : Hdr) (scope account : Byte)
  | readAccount (h : Hdr) (account : Byte)
  | setDrain (h : Hdr) (trigger : Byte) (quiet : BitVec 16)
  | readDrain (h : Hdr)
  | take (h : Hdr) (k given : Byte) (expected : BitVec 16)
  | readRecord (h : Hdr) (index : Byte)
  | loadSweep (h : Hdr) (entry kind bay first last : Byte)
  | setSweepBoundary (h : Hdr) (l2 : Byte)
  | setAuditMode (h : Hdr) (list mode : Byte)
  | startSweep (h : Hdr) (list : Byte)
  | setAuditInterval (h : Hdr) (interval : BitVec 16)
  | readSweepEntry (h : Hdr) (entry : Byte)
  | readSweepList (h : Hdr) (list : Byte)
  | readSweepTimer (h : Hdr)
  | readLink (h : Hdr)
  | clearLinkCounters (h : Hdr) (name : Byte)
  | setManagementPaths (h : Hdr) (mask : Byte)
  | readState (h : Hdr)
  | readFlags (h : Hdr)
  | clearFlags (h : Hdr) (pairs : List (Byte × BitVec 32))
  | setNoticeMask (h : Hdr) (marks : BitVec 16)
  | libraryStart (h : Hdr)
  | restart (h : Hdr)
  | tick
  | resetPinAsserted
  /-- NOT_PERMITTED: an MGMT frame, whatever its command, from a path outside the mask (R216). -/
  | notPermitted (h : Hdr) (code : Byte)
  /-- BAD_ORDER: an ORDER frame whose kind code is `kind` (R28, R232). -/
  | badOrder (h : Hdr) (kind : Byte)
deriving DecidableEq, Repr

end Sys2Proof
end

