-- ==== Sys2Proof/Decode.lean ====
section
/-!
DEFINITION. The command a word spells by the bits of spec/opcode_table.json.
-/
namespace Sys2Proof

/-- No row of the table gives bits, so no word of any width spells a command. The frames that carry the commands of the
links are read in Machine/Receive.lean. (DESIGN CHOICE, log 62.) -/
def decodeTableWord (_nbits _w : Nat) : Option Instr := none

end Sys2Proof
end

