-- ==== Sys2Proof/Config.lean ====
section
/-!
DEFINITION. What an installation loads (the settings of the start image and of the management commands) as plain data,
and the FREE VALUES: what the manual leaves open and the machine nevertheless produces. A free value is an opaque
constant: nothing can prove what it is.
-/
namespace Sys2Proof

/-- FREE VALUE. Which of the free task records the arbiter gives to a claimant: R44 says "a free record" and no more.
The model asks for the k-th choice and takes it modulo the number of free records. (DESIGN CHOICE, log 10.) -/
opaque Config.recordChoice : Nat → Nat

/-- FREE VALUE. The six bytes by which a DATA reply shows UNKNOWN REEL where a field may hold a serial or UNKNOWN REEL
(R24, R81): R229 and R233 give none. (DESIGN CHOICE, log 19.) -/
opaque Config.unknownReelBytes : BitVec 48

/-- FREE VALUE. The six bytes by which READ ACCESSOR shows a gripper that is EMPTY (`false`) or NOT KNOWN (`true`).
(DESIGN CHOICE, log 20.) -/
opaque Config.gripperBytes : Bool → BitVec 48

/-- FREE VALUE. The byte by which READ LEG and READ TASK refer to an outstanding leg (R50, R56): no rule gives a leg a
number on the link. (DESIGN CHOICE, log 21.) -/
opaque Config.legReference : Nat → Byte

namespace Machine

/-- The fourteen prompt kinds, in the order of their numbers (R146). -/
inductive PromptKind where
  | fetch | locate | ring | ringPull | remove | wrongReel | threadFail | clean | accessorFault | allowance
  | foreign | rackFull | watch | retire
deriving DecidableEq, Repr

/-- The field inserts of a template (R155). -/
inductive Insert where
  | vol | ser2 | drv | slot | cell | acct | acc | code | opens | hold
deriving DecidableEq, Repr

/-- A template segment: literal text as character codes, or an insert with the width it is shown at, which a
truncation may have cut (R155, R156). -/
inductive Segment where
  | lit (text : List Byte)
  | ins (i : Insert) (width : Nat)
deriving DecidableEq, Repr

/-- A template: two lines of segments (R155). -/
structure Template where
  line1 : List Segment
  line2 : List Segment
deriving DecidableEq, Repr

/-- The deadline, escalation interval and initial urgency of a prompt kind (R147). -/
structure PromptTimes where
  deadline : Nat
  escalation : Nat
  urgency : Nat
deriving DecidableEq, Repr

/-- The pace sets (R32); for D, the N and h as given. -/
inductive PaceSet where
  | A | B | C | D (n hyst : Nat)
deriving DecidableEq, Repr

/-- A rate class (R173). -/
structure Rate where
  fee : Nat
  granule : Nat
  price : Nat
  wear : Nat
deriving DecidableEq, Repr

/-- A shift period: start minute and factor in sixteenths (R174). -/
structure Period where
  start : Nat
  factor : Nat
deriving DecidableEq, Repr

/-- A sweep table entry (R193). -/
inductive SweepEntry where
  | fin
  | range (bay first last : Nat) (pause : Bool)
deriving DecidableEq, Repr

/-- The five modes of an audit list (R196). -/
inductive AuditMode where
  | off | command | door | interval | intervalOnce
deriving DecidableEq, Repr

/-- What one drive entry of the start image gives (R131, R225). -/
structure DriveSetup where
  present : Bool
  mask : BitVec 4
  interval : Nat
deriving DecidableEq, Repr

/-- The values the start image and the management commands load, kept across warm restart. -/
structure Settings where
  /-- management path mask (R216) -/
  mgmtMask : BitVec 4
  /-- notice mask, bit n for flag n (R221) -/
  noticeMask : BitVec 14
  /-- pace set (R32) -/
  pace : PaceSet
  /-- tenure value in ticks (R110) -/
  tenure : Nat
  /-- prescale P (R171) -/
  prescale : Nat
  /-- divisor D (R171) -/
  divisor : Nat
  /-- trigger level of the accounting buffer (R187) -/
  trigger : Nat
  /-- quiet interval (R188) -/
  quiet : Nat
  /-- mount limit and failure limit (R142) -/
  mountLimit : Nat
  failLimit : Nat
  /-- rate table (R173) -/
  rates : Vector Rate 8
  /-- shift table, lowest start minute first (R174) -/
  shifts : List Period
  /-- prompt times, kinds 0–13 (R147) -/
  times : Vector PromptTimes 14
  /-- templates 0–14 (R155) -/
  templates : Vector Template 15
  /-- sweep table (R193) -/
  sweep : Vector SweepEntry 64
  /-- list boundary L2 (R194) -/
  l2 : Nat
  /-- audit interval (R199) -/
  auditInterval : Nat
deriving DecidableEq, Repr

end Machine
end Sys2Proof
end

