-- ==== Sys2Proof/Machine/Defaults.lean ====
section
/-!
DEFINITION. The default of every item of the start image (R225), used when the image is not used.
-/
namespace Sys2Proof.Machine

/-- Literal template text as character codes (R155: each character is one byte). -/
def txt (cs : List Char) : Segment := .lit (cs.map fun c => BitVec.ofNat 8 c.toNat)

/-- The built-in templates, 0–13 for the prompt kinds and 14 for IDLE (R157). -/
def defaultTemplates : Vector Template 15 := #v[
  /- FETCH -/ ⟨[txt ['F', 'E', 'T', 'C', 'H', ' '], .ins .vol 6, txt [' ', 'F', 'O', 'R', ' ', 'D', 'R', 'I', 'V', 'E', ' '], .ins .drv 2],
    [txt ['A', 'C', 'C', 'T', ' '], .ins .acct 3, txt [' ', 'K', 'E', 'Y', ' ', 'E', 'N', 'T', 'R', 'Y', ' ', 'S', 'L', 'O', 'T', ',', ' ', 'D', 'O', 'N', 'E']]⟩,
  /- LOCATE -/ ⟨[txt ['L', 'O', 'C', 'A', 'T', 'E', ' '], .ins .vol 6, txt [' ', 'D', 'R', 'I', 'V', 'E', ' '], .ins .drv 2],
    [txt ['K', 'E', 'Y', ' ', 'E', 'N', 'T', 'R', 'Y', ' ', 'S', 'L', 'O', 'T', ',', ' ', 'D', 'O', 'N', 'E']]⟩,
  /- RING -/ ⟨[txt ['I', 'N', 'S', 'E', 'R', 'T', ' ', 'R', 'I', 'N', 'G', ' '], .ins .vol 6, txt [' ', 'A', 'T', ' '], .ins .slot 2],
    [txt ['D', 'O', 'N', 'E', ' ', 'F', 'I', 'T', 'T', 'E', 'D', ',', ' ', 'C', 'A', 'N', 'C', 'E', 'L', ' ', 'R', 'E', 'T', 'U', 'R', 'N']]⟩,
  /- RING-PULL -/ ⟨[txt ['P', 'U', 'L', 'L', ' ', 'R', 'I', 'N', 'G', ' '], .ins .vol 6, txt [' ', 'A', 'T', ' '], .ins .slot 2],
    [txt ['D', 'O', 'N', 'E', ' ', 'P', 'U', 'L', 'L', 'E', 'D', ',', ' ', 'C', 'A', 'N', 'C', 'E', 'L', ' ', 'K', 'E', 'E', 'P']]⟩,
  /- REMOVE -/ ⟨[txt ['R', 'E', 'M', 'O', 'V', 'E', ' '], .ins .vol 6, txt [' ', 'F', 'R', 'O', 'M', ' '], .ins .slot 2],
    [txt ['D', 'O', 'N', 'E', ' ', 'W', 'H', 'E', 'N', ' ', 'T', 'A', 'K', 'E', 'N', ' ', 'O', 'U', 'T']]⟩,
  /- WRONG-REEL -/ ⟨[txt ['W', 'R', 'O', 'N', 'G', ' ', 'R', 'E', 'E', 'L', ' '], .ins .ser2 6, txt [' ', 'A', 'T', ' '], .ins .cell 4, .ins .slot 2, .ins .drv 2],
    [txt ['W', 'A', 'N', 'T', 'E', 'D', ' '], .ins .vol 6, txt [' ', 'A', 'C', 'C', 'E', 'S', 'S', 'O', 'R', ' '], .ins .acc 1]⟩,
  /- THREAD-FAIL -/ ⟨[txt ['T', 'H', 'R', 'E', 'A', 'D', ' ', 'F', 'A', 'I', 'L', ' '], .ins .vol 6, txt [' ', 'D', 'R', 'I', 'V', 'E', ' '], .ins .drv 2],
    [txt ['D', 'O', 'N', 'E', ' ', 'R', 'E', 'T', 'R', 'Y', ',', ' ', 'C', 'A', 'N', 'C', 'E', 'L', ' ', 'A', 'B', 'A', 'N', 'D', 'O', 'N']]⟩,
  /- CLEAN -/ ⟨[txt ['C', 'L', 'E', 'A', 'N', ' ', 'D', 'R', 'I', 'V', 'E', ' '], .ins .drv 2],
    [txt ['D', 'O', 'N', 'E', ' ', 'C', 'L', 'E', 'A', 'N', 'E', 'D', ',', ' ', 'C', 'A', 'N', 'C', 'E', 'L', ' ', 'D', 'E', 'F', 'E', 'R']]⟩,
  /- ACCESSOR-FAULT -/ ⟨[txt ['A', 'C', 'C', 'E', 'S', 'S', 'O', 'R', ' '], .ins .acc 1, txt [' ', 'F', 'A', 'U', 'L', 'T', ' '], .ins .code 12],
    [txt ['R', 'E', 'P', 'A', 'I', 'R', ',', ' ', 'M', 'A', 'I', 'N', 'T', 'A', 'I', 'N', ',', ' ', 'D', 'O', 'N', 'E']]⟩,
  /- ALLOWANCE -/ ⟨[txt ['A', 'C', 'C', 'T', ' '], .ins .acct 3, txt [' ', 'O', 'V', 'E', 'R', ' ', 'A', 'L', 'L', 'O', 'W', 'A', 'N', 'C', 'E', ' '], .ins .vol 6],
    [txt ['D', 'O', 'N', 'E', ' ', 'A', 'P', 'P', 'R', 'O', 'V', 'E', ',', ' ', 'C', 'A', 'N', 'C', 'E', 'L', ' ', 'R', 'E', 'F', 'U', 'S', 'E']]⟩,
  /- FOREIGN -/ ⟨[txt ['F', 'O', 'R', 'E', 'I', 'G', 'N', ' ', 'R', 'E', 'E', 'L', ' '], .ins .ser2 6, txt [' ', 'A', 'T', ' '], .ins .slot 2, .ins .cell 4],
    [txt ['D', 'O', 'N', 'E', ' ', 'W', 'H', 'E', 'N', ' ', 'T', 'A', 'K', 'E', 'N', ' ', 'O', 'U', 'T']]⟩,
  /- RACK-FULL -/ ⟨[txt ['S', 'E', 'R', 'V', 'I', 'C', 'E', ' ', 'R', 'A', 'C', 'K', ' ', 'F', 'U', 'L', 'L']],
    [txt ['C', 'L', 'E', 'A', 'R', ' ', 'A', ' ', 'S', 'E', 'R', 'V', 'I', 'C', 'E', ' ', 'S', 'L', 'O', 'T']]⟩,
  /- WATCH -/ ⟨[txt ['W', 'A', 'T', 'C', 'H', ' '], .ins .vol 6, txt [' ', 'O', 'N', ' ', 'D', 'R', 'I', 'V', 'E', ' '], .ins .drv 2],
    [txt ['D', 'O', 'N', 'E', ' ', 'T', 'O', ' ', 'D', 'I', 'S', 'M', 'I', 'S', 'S']]⟩,
  /- RETIRE -/ ⟨[txt ['R', 'E', 'T', 'I', 'R', 'E', ' '], .ins .vol 6, txt [' ', 'W', 'O', 'R', 'N', ' ', 'D', 'R', 'I', 'V', 'E', ' '], .ins .drv 2],
    [txt ['D', 'O', 'N', 'E', ' ', 'T', 'O', ' ', 'D', 'I', 'S', 'M', 'I', 'S', 'S']]⟩,
  /- IDLE -/ ⟨[txt ['L', 'I', 'B', 'R', 'A', 'R', 'Y', ' ', 'P', 'R', 'O', 'M', 'P', 'T', 'S', ' '], .ins .opens 3],
    [.ins .hold 4]⟩]

/-- The default prompt times (R147): escalation interval 3,000 ticks for every kind. -/
def defaultTimes : Vector PromptTimes 14 := #v[
  ⟨18000, 3000, 1⟩, ⟨0, 3000, 1⟩, ⟨0, 3000, 1⟩, ⟨0, 3000, 0⟩, ⟨0, 3000, 0⟩, ⟨0, 3000, 1⟩, ⟨0, 3000, 1⟩,
  ⟨0, 3000, 0⟩, ⟨0, 3000, 2⟩, ⟨0, 3000, 1⟩, ⟨0, 3000, 0⟩, ⟨0, 3000, 1⟩, ⟨0, 3000, 0⟩, ⟨0, 3000, 0⟩]

/-- The default rate class: every charge is 0 (R173). -/
def defaultRate : Rate := { fee := 0, granule := 600, price := 0, wear := 0 }

/-- The default drive entry: present, every path, never due for cleaning (R131). -/
def defaultDrive : DriveSetup := { present := true, mask := 0xF#4, interval := 0 }

/-- Every setting at its default (R225), with every notice mark set (R221). -/
def defaultSettings : Settings where
  mgmtMask := 0xF#4
  noticeMask := 0x3FFF#14
  pace := .A
  tenure := 200
  prescale := 256
  divisor := 4800
  trigger := 32
  quiet := 300
  mountLimit := 0
  failLimit := 3
  rates := Vector.replicate 8 defaultRate
  shifts := []
  times := defaultTimes
  templates := defaultTemplates
  sweep := Vector.replicate 64 .fin
  l2 := 64
  auditInterval := 36000

end Sys2Proof.Machine
end

