-- ==== Sys2Proof/Machine/Types.lean ====
section
/-!
DEFINITION. The records, tables and frames of the LR-6 as plain data, block by block, each field with the rule that
names it. A field marked "model's own" is not one of the manual's fields; its docstring says what it carries.
-/
namespace Sys2Proof.Machine

/-! ### Library tables (Chapter 1) -/

inductive VolClass where
  | resident | visitor
deriving DecidableEq, Repr

inductive Ring where
  | ringless | ringed
deriving DecidableEq, Repr

/-- Where a volume is (R6). -/
inductive Location where
  | cell (c : CellNo)
  | drive (d : DriveNo)
  | gripper (a : Acc)
  | handoff (h : Fin 4)
  | entry (n : Fin 8)
  | service (n : Fin 8)
  | outside
  | unknown
deriving DecidableEq, Repr

/-- A volume record (R5). FENCED is judged, never stored (R135). -/
structure Volume where
  serial : Serial
  cls : VolClass
  home : Option CellNo
  loc : Location
  ring : Ring
  scratch : Bool
  watch : Bool
  ringPull : Bool
  misfiled : Bool
  worn : Bool
  mounts : Nat
  footage : Nat
  fails : Nat
  refilePending : Bool
  bound : Option TaskNo
deriving DecidableEq, Repr

/-- The occupancy states of a cell (R14). A reservation names the volume it is for, none for the put-back of a reel
whose label is not known (R67), and the reserving task (R24). -/
inductive Occ where
  | empty
  | occupied (v : Serial)
  | reserved (v : Option Serial) (t : TaskNo)
  | foreign
  | suspect
deriving DecidableEq, Repr

/-- A cell map entry that is not EMPTY or is home to a volume; every other storage cell is EMPTY with no home-of. -/
structure CellRec where
  num : CellNo
  occ : Occ
  homeOf : Option Serial
deriving DecidableEq, Repr

/-- What stands in a slot or a gripper: a volume of the table, or UNKNOWN REEL (R81 note 1). -/
inductive Reel where
  | known (s : Serial)
  | unknown
deriving DecidableEq, Repr

inductive SlotState where
  | empty | reserved | occupied
deriving DecidableEq, Repr

/-- The record form of all twenty rack slots (1.5). -/
structure Slot where
  state : SlotState
  content : Option Reel
  task : Option TaskNo
deriving DecidableEq, Repr

/-- An EMPTY slot. -/
def Slot.clear : Slot := { state := .empty, content := none, task := none }

/-- LTU: volume table, cell map, entry and service racks, scratch pool. -/
structure Ltu where
  /-- in strictly rising serial order -/
  volumes : List Volume
  /-- in strictly rising cell order, no entry EMPTY without home-of -/
  cells : List CellRec
  entry : Vector Slot 8
  service : Vector Slot 8
  /-- oldest joined first (R21) -/
  pool : List Serial
deriving DecidableEq, Repr

/-! ### Orders and tasks (Chapters 2 and 3) -/

inductive Intent where
  | read | write
deriving DecidableEq, Repr

/-- A queued mount order: its tag and fields as received (R31). -/
inductive QKind where
  | mount (serial : Serial) (intent : Intent)
  | scratch
deriving DecidableEq, Repr

structure QOrder where
  tag : Byte
  kind : QKind
  drive : DriveNo
  account : Byte
deriving DecidableEq, Repr

/-- OIU: the intake queues, the pace state of each path (`true` PACED) and the path last served (R31–R34). -/
structure Oiu where
  queues : Vector (List QOrder) 4
  paced : Vector Bool 4
  lastServed : Path
deriving DecidableEq, Repr

inductive TaskKind where
  | mount | mountScratch | enter | eject | refile | recovery
deriving DecidableEq, Repr

inductive Origin where
  | path (p : Path) (tag : Byte)
  | operator | management | audit | internal
deriving DecidableEq, Repr

/-- The nine task states (R51). ADMITTED and ENDED are never seen outside the action that makes them. -/
inductive TaskState where
  | admitted | waiting | opwait | moving | threading | mounted | unloading | demounting | ended
deriving DecidableEq, Repr

inductive WaitReason where
  | clean | handoff | service | driveFree | zone
deriving DecidableEq, Repr

/-- The ten condition tags, in the order of their bits (R50, R232). -/
inductive CondTag where
  | ringPrompted | fetched | allowanceApproved | cleanWaited | rethreaded | wrongReel | misfiledReturn | restartClosed
  | chargeClamped | totalSaturated
deriving DecidableEq, Repr

/-- The final statuses by which an admitted order can end other than MOUNTED (R53, R55). -/
inductive Final where
  | cancelled | operatorCancelled | operatorTimeout | fenced | worn | mechanismFailed | allowanceRefused
  | libraryRestarted | noDrive | notReachable | driveOffline | driveOccupied | tableFull | volumeInUse | noScratch
deriving DecidableEq, Repr

/-- The work of a leg (R56), which fixes its class and what its placement means. -/
inductive Work where
  /-- toward the task's drive -/
  | toDrive
  /-- to a service slot for the ring stop (R64) -/
  | ringStop
  /-- to a service slot for the ring pull (R71) -/
  | ringPull
  /-- to a service slot for a REMOVE prompt (R73) -/
  | remove
  /-- to the reserved cell (R59) -/
  | store
  /-- a RETURN that leaves a visitor in a service slot (R78) -/
  | returnSlot
  /-- a pick whose label decides the destination (R74, R77) -/
  | identify
  /-- to a service slot for a FOREIGN prompt (R74, R77) -/
  | foreign
  /-- to a service slot, to be handed to task `x` (R74, R77) -/
  | handover (x : TaskNo)
  /-- a wrong reel carried away (R67) -/
  | carry
deriving DecidableEq, Repr

/-- What a task that cannot go on for want of a slot is waiting for (R58, R60). -/
inductive Waiter where
  | handoff | service
deriving DecidableEq, Repr

/-- A task record (R50). -/
structure Task where
  kind : TaskKind
  origin : Origin
  answered : Bool
  serial : Option Serial
  drive : Option DriveNo
  intent : Intent
  account : Byte
  state : TaskState
  wait : Option WaitReason
  tags : BitVec 10
  handoff : Option (Fin 4)
  service : Option (Fin 8)
  cell : Option CellNo
  prompt : Option Nat
  requester : Option (Path × Byte)
  pending : Option Final
  admitted : Tick
  mountedTick : Option Tick
  mountedMinute : Option Nat
  /-- model's own: the movement in hand or waited for (its legs follow from it) -/
  work : Option Work
  /-- model's own: the task is a handoff waiter or a service waiter, in whatever state (R58, R60) -/
  waiter : Option Waiter
  /-- model's own: where the reel of a task without a volume serial stands -/
  source : Option Location
  /-- model's own: the location the volume held before a FETCH or LOCATE claim (R67) -/
  preClaim : Option Location
  /-- model's own: the accessor whose fault stopped the task's leg (R79) -/
  faulted : Option Acc
  /-- model's own: the serial read from a reel that goes to a FOREIGN prompt -/
  readSerial : Option Serial
  /-- model's own: the RING-PULL prompt of this demount was answered with the ring kept (R72) -/
  ringKept : Bool
  /-- model's own: the gripper whose reel the task's last plan goes on from, so that a live task holds that reel (R77) -/
  holding : Option Acc
  /-- model's own: the task has been given the RETURN plan (R78, R79) -/
  returning : Bool
deriving DecidableEq, Repr

/-- A waiting RECOVERY request (R44, R77), by the reel it is for. -/
inductive Request where
  | gripper (a : Acc)
  | handoff (h : Fin 4)
  | service (n : Fin 8)
  | drive (d : DriveNo)
  | cell (s : Serial)
deriving DecidableEq, Repr

/-- TCU: the task table, the RECOVERY requests (oldest first), the rack-full mark. -/
structure Tcu where
  tasks : Vector (Option Task) 48
  requests : List Request
  rackFull : Bool
  /-- model's own: how many free records have been chosen (`Config.recordChoice`) -/
  choices : Nat
deriving DecidableEq, Repr

/-! ### Motion (Chapter 4) -/

/-- The leg classes, highest first (R91). -/
inductive LegClass where
  | recovery | mount | demount | service | refile | audit
deriving DecidableEq, Repr

inductive ListNo where
  | one | two
deriving DecidableEq, Repr

/-- A leg's owner: a task; an audit list; or, for a leg of no task, which carries a wrong reel away (R67) or ends with its step
in flight after its task has ended (R90), the record of the task it came from, and whether that task still holds the record.
(DEDUCED, log 23.) -/
inductive Owner where
  | task (t : TaskNo)
  | found (t : TaskNo) (live : Bool)
  | audit (l : ListNo)
deriving DecidableEq, Repr

/-- A leg (R56) or an audit leg (R102). -/
structure Leg where
  /-- model's own: legs are numbered as they join the queue, which orders those of one tick (R91) -/
  id : Nat
  owner : Owner
  cls : LegClass
  /-- for an audit leg, a cell of its bay -/
  src : Location
  dst : Option Location
  /-- model's own: the destination of leg 2 when this leg ends in a handoff slot (R57) -/
  onward : Option Location
  capA : Bool
  capB : Bool
  /-- steps done (R56) -/
  steps : Nat
  /-- the tick at which it joined the queue, its age (R91) -/
  joined : Tick
  /-- model's own: the reel is in the gripper -/
  picked : Bool
  /-- model's own: the work, which fixes the class -/
  work : Work
  /-- an audit leg's bay, next and last position (R102) -/
  bay : Nat
  pos : Nat
  last : Nat
deriving DecidableEq, Repr

inductive AccState where
  | unknown | idle | stepping | held | faulted | recovering
deriving DecidableEq, Repr

inductive Gripper where
  | empty | known (s : Serial) | unknownReel | notKnown
deriving DecidableEq, Repr

inductive FaultCode where
  | motor | labelDevice | timeout | position
deriving DecidableEq, Repr

/-- A step and its target (R83). -/
inductive StepKind where
  | travel (bay : Nat)
  | pick (bay pos : Nat)
  | place (bay pos : Nat)
  | read (bay first last : Nat)
  | recover (clear : Bool) (retreat : Nat)
deriving DecidableEq, Repr

structure InFlight where
  kind : StepKind
  tag : Byte
  deadline : Tick
deriving DecidableEq, Repr

inductive Errand where
  | retreat | park
deriving DecidableEq, Repr

/-- An accessor context (R81). The zone holder and claim waiting fields are those of `Mou`. -/
structure AccCtx where
  state : AccState
  bay : Option Nat
  gripper : Gripper
  step : Option InFlight
  leg : Option Leg
  errand : Option Errand
  nextTag : Byte
  late : Nat
  lastFault : Option FaultCode
  /-- model's own: no further step of the current leg is sent (R90, R104) -/
  ending : Bool
  /-- model's own: a RECOVER is kept unsent under hold (R101, R107) -/
  recoverDue : Bool
  /-- model's own: the serial last read from a reel in the gripper, kept for a FOREIGN prompt (R146 note 1) -/
  read : Option Serial
  /-- model's own: the reel in the gripper was picked from an entry slot, so it came through the entry rack (R63) -/
  viaEntry : Bool
deriving DecidableEq, Repr

/-- MOU: the accessor contexts, the leg queue, the zone grant with its tenure timer, the handoff rack. -/
structure Mou where
  accA : AccCtx
  accB : AccCtx
  /-- of the two accessors, the one that entered IDLE earlier (R81, R93) -/
  firstIdle : Acc
  /-- in queue order (R91) -/
  queue : List Leg
  nextLeg : Nat
  holder : Option Acc
  claimant : Option Acc
  /-- present while the tenure timer runs -/
  tenureEnd : Option Tick
  /-- model's own: the tenure value of the last grant, from which a timer of that grant starts afresh (R96, R108, R110) -/
  tenure : Nat
  expired : Bool
  handoff : Vector Slot 4
deriving DecidableEq, Repr

/-! ### Drives (Chapter 5) -/

/-- The eleven drive states (R116), in the order of their codes (R232). -/
inductive DriveState where
  | absent | offline | empty | cleanDue | reserved | threading | mounted | unloading | unloaded | faulted | heldReel
deriving DecidableEq, Repr

/-- A drive table entry (R115). -/
structure Drive where
  present : Bool
  mask : BitVec 4
  state : DriveState
  volume : Option Serial
  bound : Option TaskNo
  mountOpen : Bool
  footage : Nat
  interval : Nat
  offlinePending : Bool
  rethreadDone : Bool
  unloadSeen : Bool
  preFault : Option DriveState
  stray : Nat
deriving DecidableEq, Repr

structure Dru where
  drives : Vector Drive 32
deriving DecidableEq, Repr

/-! ### The fence (Chapter 6) -/

inductive LockMode where
  | unlocked | keyed | held | permanent
deriving DecidableEq, Repr

structure FenceRange where
  first : Serial
  last : Serial
  enabled : Bool
deriving DecidableEq, Repr

/-- One copy of the fence (R134); `LockMode.unlocked` is the manual's OPEN. -/
structure FenceCopy where
  ranges : Vector FenceRange 8
  invert : Bool
  mode : LockMode
deriving DecidableEq, Repr

/-- The write in flight to the stored copy (R134, R138). -/
structure Persist where
  done : Tick
  image : FenceCopy
deriving DecidableEq, Repr

structure Fence where
  working : FenceCopy
  stored : FenceCopy
  persist : Option Persist
deriving DecidableEq, Repr

/-! ### Prompts (Chapter 7) -/

inductive PromptOwner where
  | task (t : TaskNo)
  | drive (d : DriveNo)
  | acc (a : Acc)
deriving DecidableEq, Repr

/-- The parameters a prompt may carry (R146 note 1). -/
structure Params where
  vol : Option Serial := none
  ser2 : Option Serial := none
  drive : Option DriveNo := none
  slot : Option Location := none
  cell : Option CellNo := none
  account : Option Byte := none
  acc : Option Acc := none
  code : Option FaultCode := none
deriving DecidableEq, Repr

/-- A backlogged request (R148). -/
structure PromptRequest where
  number : Nat
  kind : PromptKind
  params : Params
  owner : PromptOwner
deriving DecidableEq, Repr

/-- An open prompt (R148). -/
structure Prompt where
  number : Nat
  kind : PromptKind
  params : Params
  owner : PromptOwner
  urgency : Nat
  opened : Tick
  order : Nat
  nextEsc : Option Tick
  /-- model's own: the escalation interval the prompt was opened with (R153) -/
  escEvery : Nat
  deadline : Option Tick
  skip1 : Bool
  skip2 : Bool
deriving DecidableEq, Repr

/-- A console context (R158); its key switch stands in `Env`. -/
structure ConsoleCtx where
  shown : Option Nat
  urgency : Option Nat
  lines : Option (List Byte × List Byte)
deriving DecidableEq, Repr

inductive KeySwitch where
  | run | maintain | notKnown
deriving DecidableEq, Repr

/-- PRU: prompt table (in the order of opening), backlog (oldest first), numbering, console contexts. -/
structure Pru where
  table : List Prompt
  backlog : List PromptRequest
  /-- model's own: the requests made while an answer is delivered, oldest first, which are taken after the backlog's head
  (R151); none outside a delivery -/
  later : Option (List PromptRequest)
  lastNumber : Nat
  openings : Nat
  con1 : ConsoleCtx
  con2 : ConsoleCtx
deriving DecidableEq, Repr

/-! ### Accounting (Chapter 8) -/

/-- An account entry (R176). -/
structure Account where
  cls : Fin 8
  allowance : Nat
  total : Nat
  mounts : Nat
  occupancy : Nat
  saturated : Bool
deriving DecidableEq, Repr

/-- A usage record (R185). -/
structure Usage where
  seq : Nat
  account : Byte
  volume : Serial
  drive : DriveNo
  path : Path
  intent : Intent
  minute : Nat
  occupancy : Nat
  footage : Nat
  blocksRead : Nat
  blocksWritten : Nat
  factor : Nat
  charge : Nat
  tags : BitVec 10
deriving DecidableEq, Repr

/-- ACU less the clock and the loaded tables: accounts, buffer (oldest first), next sequence number, quiet timer. -/
structure Acu where
  accounts : Vector Account 256
  buffer : List Usage
  nextSeq : Nat
  quietEnd : Option Tick
deriving DecidableEq, Repr

/-! ### Audit (Chapter 9) -/

inductive ListState where
  | idle | running | paused | suspended
deriving DecidableEq, Repr

structure Counts where
  read : Nat
  missing : Nat
  misfiled : Nat
  foreign : Nat
  unreadable : Nat
  skipped : Nat
deriving DecidableEq, Repr

/-- A list context (R195). -/
structure ListCtx where
  mode : AuditMode
  armed : Bool
  state : ListState
  next : Nat
  pos : Option Nat
  live : Bool
  startPending : Bool
  counts : Counts
  /-- model's own: the pause mark of the entry in hand, read when the entry was taken up (R193, R201) -/
  pause : Bool
deriving DecidableEq, Repr

/-- ADU less the sweep table: the two lists and the interval timer (none: held at zero). -/
structure Adu where
  list1 : ListCtx
  list2 : ListCtx
  timer : Option Tick
deriving DecidableEq, Repr

/-! ### Management (Chapter 10) -/

inductive LibState where
  | starting | loading | running | restarting
deriving DecidableEq, Repr

/-- The fourteen event flags, in the order of their numbers (R233). -/
inductive EventFlag where
  | acctReady | accountSaturated | audit1Done | audit2Done | audit1Paused | audit2Paused | audit1Overrun
  | audit2Overrun | accessorFault | watchSeen | promptBacklog | fenceStored | linkError | imageBad
deriving DecidableEq, Repr

structure FlagRec where
  isSet : Bool
  gen : Nat
deriving DecidableEq, Repr

/-- The outcome of the last image read (R218). -/
inductive ImageOutcome where
  | used (defaulted : Nat) | byStrap | badImage
deriving DecidableEq, Repr

/-- MGU less the masks: library state, answered marks, image read in progress and its outcome, flags, generation. -/
structure Mgu where
  lib : LibState
  ansA : Bool
  ansB : Bool
  imageStart : Option Tick
  outcome : ImageOutcome
  flags : Vector FlagRec 14
  gen : Nat
deriving DecidableEq, Repr

/-! ### Frames the part sends (Chapter 11) -/

/-- What QUERY VOLUME shows (R35). -/
structure VolumeInfo where
  cls : VolClass
  loc : Location
  ring : Ring
  scratch : Bool
  watch : Bool
  ringPull : Bool
  misfiled : Bool
  worn : Bool
  fenced : Bool
  bound : Bool
  mounts : Nat
  fails : Nat
deriving DecidableEq, Repr

/-- What QUERY DRIVE shows (R36). -/
structure DriveInfo where
  state : DriveState
  preFault : Option DriveState
  volume : Option Serial
  bound : Bool
  offlinePending : Bool
  mask : BitVec 4
deriving DecidableEq, Repr

/-- A status with the contents its code requires (R55, R232). -/
inductive Status where
  | queued (depth : Nat)
  | admitted (t : TaskNo) (s : Serial)
  | waiting (r : WaitReason)
  | operator (k : PromptKind)
  | moving
  | pace | resume
  | notReady | badOrder | tagInUse | busy
  | infoVolume (i : VolumeInfo)
  | infoDrive (i : DriveInfo)
  | notFound | noDrive | notReachable | notMounted | alreadyDismounting
  | dismounted (d : DriveNo)
  | cancelTaken | tooLate | alreadyEnding
  | mounted (s : Serial) (d : DriveNo) (tags : BitVec 10)
  /-- the final status of a mount kind other than MOUNTED, with the condition tags -/
  | ended (f : Final) (tags : BitVec 10)
  /-- the final status of a DISMOUNT other than DISMOUNTED -/
  | dismountEnded (f : Final) (d : DriveNo)
deriving DecidableEq, Repr

inductive Mark where
  | interim | last | path
deriving DecidableEq, Repr

/-- The reply codes (R217), in the order of their codes. -/
inductive Reply where
  | accepted | data | record | ends | badValue | notFound | bound | occupied | noCell | fenced | locked | busy
  | driveBusy | location | sequence | wrongMode | wrongState | notReady | notPermitted | unknownCommand | tableFull
deriving DecidableEq, Repr

/-- The contents of a MGMT-REPLY (R233), by the command it answers. -/
inductive Contents where
  | nothing
  | volume (v : Volume) (fenced : Bool)
  | cell (c : CellRec)
  | slot (s : Slot)
  | pool (s : Serial) (length : Nat)
  /-- a length or a count, sent in `width` bytes -/
  | length (width n : Nat)
  | fence (f : FenceCopy) (remaining : Option Nat)
  | wearLimits (mount fail : Nat)
  | taskNumber (t : TaskNo)
  | task (k : Task) (legs : List Nat)
  | free
  | accessor (c : AccCtx) (isHolder claimWaiting : Bool) (holder claimant : Option Acc) (tenure : Option Nat)
      (expired hold1 hold2 door : Bool) (legs : Nat)
  | leg (l : Leg)
  | drive (d : Drive)
  | prompt (p : Prompt)
  | backlogged (r : PromptRequest)
  | promptEnd (opens backlog : Nat)
  | console (c : ConsoleCtx) (k : KeySwitch)
  | template (t : Template)
  | times (t : PromptTimes)
  | clock (tick : Tick) (minute sub prescale divisor : Nat)
  | rate (r : Rate)
  | shifts (l : List Period)
  | account (a : Account)
  | drain (trigger quiet count nextSeq : Nat) (remaining : Option Nat)
  | usage (u : Usage)
  | taken (returned remain : Nat)
  | sequence (oldest : Nat)
  | usageAt (u : Usage) (count : Nat)
  | sweepEntry (e : SweepEntry)
  | sweepList (c : ListCtx) (l2 : Nat)
  | sweepTimer (interval : Nat) (remaining : Option Nat)
  | link (c m : Nat)
  | state (lib : LibState) (ansA ansB : Bool) (outcome : ImageOutcome) (mask : BitVec 4) (notices : BitVec 14)
      (gen : Nat)
  | flags (f : Vector FlagRec 14) (gen : Nat)
  | flagsCleared (cleared stillSet : BitVec 14)
deriving DecidableEq, Repr

/-- A frame the part sends on the C-link (R212). -/
inductive CFrame where
  | status (p : Path) (tag : Option Byte) (mark : Mark) (s : Status)
  | reply (p : Path) (tag : Byte) (code : Reply) (c : Contents)
  | notice (p : Path) (f : EventFlag) (gen : Nat) (flags : BitVec 14)
deriving DecidableEq, Repr

inductive DriveCmd where
  | unload | rethread
deriving DecidableEq, Repr

/-- A frame the part sends on the M-link (R212). -/
inductive MFrame where
  | step (a : Acc) (k : StepKind) (tag : Byte)
  | drive (d : DriveNo) (c : DriveCmd)
  | display (con : Console) (prompt : Option Nat) (kind : Option PromptKind) (urgency : Nat) (bell : Bool)
      (line1 line2 : List Byte)
  | beep (con : Console)
deriving DecidableEq, Repr

/-- The frames made so far on each link, in the order they were made (R215). -/
structure Out where
  c : List CFrame
  m : List MFrame
deriving DecidableEq, Repr

/-! ### The blocks together -/

/-- The blocks whose state the work of the library moves. -/
structure Plant where
  ltu : Ltu
  tcu : Tcu
  mou : Mou
  dru : Dru
  pru : Pru
  adu : Adu
  mgu : Mgu
  out : Out
deriving DecidableEq, Repr

/-- What only settings, time, pins and switches change: the time base and day clock, the loaded settings, the fence, the
key switches, the hold sources, the link error counters. -/
structure Env where
  /-- tick count (R171) -/
  tick : Tick
  /-- day clock: minute 0–1,439 and sub-count 0–599 (R172) -/
  minute : Nat
  sub : Nat
  set : Settings
  /-- the fence, its stored copy and the persist record (R134) -/
  fence : Fence
  /-- key switches of console 1 and 2 (R165) -/
  sw1 : KeySwitch
  sw2 : KeySwitch
  /-- hold sources (R100) -/
  hold1 : Bool
  hold2 : Bool
  door : Bool
  /-- link error counters (R214) -/
  linkC : Nat
  linkM : Nat
  /-- the reset pin, asserted or not (R223) -/
  resetPin : Bool
  /-- the image-skip strap as last sampled (R223) -/
  strap : Bool
deriving DecidableEq, Repr

end Sys2Proof.Machine
end

