-- ==== Sys2Proof/Machine/Boot.lean ====
section
/-!
DEFINITION. The values each block takes at power-on and at hard reset.
-/
namespace Sys2Proof.Machine

/-- The working fence copy as the part leaves the factory (R134). -/
def factoryFence : FenceCopy :=
  { ranges := Vector.replicate 8 { first := 0, last := 0, enabled := false }, invert := false, mode := .unlocked }

/-- A drive entry built from what the start image gives (R131). -/
def Drive.boot (d : DriveSetup) : Drive where
  present := d.present
  mask := d.mask
  state := if d.present then .empty else .absent
  volume := none
  bound := none
  mountOpen := false
  footage := 0
  interval := d.interval
  offlinePending := false
  rethreadDone := false
  unloadSeen := false
  preFault := none
  stray := 0

/-- An accessor context at power-on and hard reset (R112). -/
def AccCtx.boot : AccCtx where
  state := .unknown
  bay := none
  gripper := .notKnown
  step := none
  leg := none
  errand := none
  nextTag := 0
  late := 0
  lastFault := none
  ending := false
  recoverDue := false
  read := none
  viaEntry := false

/-- An account entry at power-on and hard reset (R176). -/
def Account.boot : Account :=
  { cls := 0, allowance := 0, total := 0, mounts := 0, occupancy := 0, saturated := false }

/-- Counts of a pass, all zero (R200). -/
def Counts.zero : Counts := { read := 0, missing := 0, misfiled := 0, foreign := 0, unreadable := 0, skipped := 0 }

/-- A list context at power-on and hard reset, with the mode the image gives (R210). -/
def ListCtx.boot (m : AuditMode) : ListCtx where
  mode := m
  armed := false
  state := .idle
  next := 0
  pos := none
  live := false
  startPending := false
  counts := Counts.zero
  pause := false

/-- A console context showing nothing (R169). -/
def ConsoleCtx.boot : ConsoleCtx := { shown := none, urgency := none, lines := none }

/-- LTU at power-on and hard reset: empty (R25). -/
def Ltu.boot : Ltu where
  volumes := []
  cells := []
  entry := Vector.replicate 8 Slot.clear
  service := Vector.replicate 8 Slot.clear
  pool := []

/-- OIU at power-on and hard reset (R34). -/
def Oiu.boot : Oiu where
  queues := Vector.replicate 4 []
  paced := Vector.replicate 4 false
  lastServed := 3

/-- TCU at power-on and hard reset (R54, R60); the count of record choices, which only numbers free values, goes on.
(DESIGN CHOICE, log 60.) -/
def Tcu.boot (choices : Nat) : Tcu :=
  { tasks := Vector.replicate 48 none, requests := [], rackFull := false, choices := choices }

/-- MOU at power-on and hard reset (R112). (DESIGN CHOICE, logs 26 and 60.) -/
def Mou.boot : Mou where
  accA := AccCtx.boot
  accB := AccCtx.boot
  firstIdle := .A
  queue := []
  nextLeg := 0
  holder := none
  claimant := none
  tenureEnd := none
  tenure := 0
  expired := false
  handoff := Vector.replicate 4 Slot.clear

/-- PRU at power-on and hard reset (R169). (DESIGN CHOICE, log 60.) -/
def Pru.boot : Pru where
  table := []
  backlog := []
  later := none
  lastNumber := 65535
  openings := 0
  con1 := ConsoleCtx.boot
  con2 := ConsoleCtx.boot

/-- ACU's accounts and buffer at power-on and hard reset (R176, R185, R186, R188). -/
def Acu.boot : Acu where
  accounts := Vector.replicate 256 Account.boot
  buffer := []
  nextSeq := 0
  quietEnd := none

/-- ADU at power-on and hard reset, both lists OFF until the image gives their modes (R210). -/
def Adu.boot : Adu := { list1 := ListCtx.boot .off, list2 := ListCtx.boot .off, timer := none }

/-- MGU at power-on and hard reset: STARTING, the image read begun at tick 0 (R219, R223, R224, R228). The outcome of the
last image read stands at USED until the read has ended; no command can show it before. (DESIGN CHOICE, log 60.) -/
def Mgu.boot : Mgu where
  lib := .starting
  ansA := false
  ansB := false
  imageStart := some 0
  outcome := .used 0
  flags := Vector.replicate 14 { isSet := false, gen := 0 }
  gen := 0

/-- Every block of the plant at power-on and hard reset, with the frames made so far kept as the link's history.
(DESIGN CHOICE, log 3; DEDUCED, log 25.) -/
def Plant.boot (o : Out) (choices : Nat) : Plant where
  ltu := Ltu.boot
  tcu := Tcu.boot choices
  mou := Mou.boot
  dru := { drives := Vector.replicate 32 (Drive.boot defaultDrive) }
  pru := Pru.boot
  adu := Adu.boot
  mgu := Mgu.boot
  out := o

/-- The fence after power-on: the working copy is loaded from the stored copy and a persist in flight is abandoned (R141). -/
def Fence.powerOn (f : Fence) : Fence := { working := f.stored, stored := f.stored, persist := none }

/-- The fence after hard reset: as power-on, but a HELD working mode survives (R141). -/
def Fence.hardReset (f : Fence) : Fence where
  working := if f.working.mode = .held then { f.stored with mode := .held } else f.stored
  stored := f.stored
  persist := none

/-- Time, settings, switches, holds and link counters at power-on and hard reset, over a fence and a strap
(R100, R165, R171, R172, R214, R223); the settings stand at their defaults until the image is applied.
(DEDUCED, log 25.) -/
def Env.boot (f : Fence) (strap : Bool) : Env where
  tick := 0
  minute := 0
  sub := 0
  set := defaultSettings
  fence := f
  sw1 := .notKnown
  sw2 := .notKnown
  hold1 := false
  hold2 := false
  door := false
  linkC := 0
  linkM := 0
  resetPin := false
  strap := strap

end Sys2Proof.Machine
end

