-- ==== Sys2Proof/Machine/Operands.lean ====
section
/-!
DEFINITION. Reading the operands of commands: serials, numbers and coded names as Chapter 11 lays them out, and the bay
plan by which a location, a bay and an accessor's reach are read (R1, R2).
-/
namespace Sys2Proof.Machine

/-! ### Serials (R3, R229) -/

/-- The base-36 digit of a serial character: 30h–39h are 0–9 and 41h–5Ah are A–Z. -/
def charDigit (b : Byte) : Option Nat :=
  let n := b.toNat
  if 0x30 ≤ n ∧ n ≤ 0x39 then some (n - 0x30)
  else if 0x41 ≤ n ∧ n ≤ 0x5A then some (n - 0x41 + 10)
  else none

/-- The character of a base-36 digit. -/
def digitChar (d : Nat) : Byte := BitVec.ofNat 8 (if d < 10 then 0x30 + d else 0x41 + (d - 10))

/-- The number that serial characters read, or none when one is not a serial character. -/
def digitsValue : List Byte → Nat → Option Nat
  | [], acc => some acc
  | b :: bs, acc =>
    match charDigit b with
    | some d => digitsValue bs (acc * 36 + d)
    | none => none

/-- A serial field: six characters of R3, or none when it is malformed. -/
def serialOf (bs : List Byte) : Option Serial :=
  if bs.length = 6 then
    match digitsValue bs 0 with
    | some n => if h : n < 2176782336 then some ⟨n, h⟩ else none
    | none => none
  else none

/-- The six characters of a serial. -/
def serialBytes (s : Serial) : List Byte :=
  let n := s.val
  [digitChar (n / 60466176 % 36), digitChar (n / 1679616 % 36), digitChar (n / 46656 % 36),
   digitChar (n / 1296 % 36), digitChar (n / 36 % 36), digitChar (n % 36)]

/-! ### Numbers and coded names (R232–R234) -/

/-- A drive byte, valid up to 31 (R1). -/
def driveOf (b : Byte) : Option DriveNo := if h : b.toNat < 32 then some ⟨b.toNat, h⟩ else none

/-- The intent byte (R232). -/
def intentOf (b : Byte) : Option Intent := if b = 0 then some .read else if b = 1 then some .write else none

/-- An accessor byte: 00h A, 01h B (R234). -/
def accOf (b : Byte) : Option Acc := if b = 0 then some .A else if b = 1 then some .B else none

/-- A list number, 1 or 2 (R196). -/
def listOf (b : Byte) : Option ListNo := if b = 1 then some .one else if b = 2 then some .two else none

/-- A console number, 1 or 2 (R168). -/
def consoleOf (b : Byte) : Option Console := if b = 1 then some .one else if b = 2 then some .two else none

/-- A volume class byte (R232). -/
def volClassOf (b : Byte) : Option VolClass := if b = 0 then some .resident else if b = 1 then some .visitor else none

/-- A ring byte (R232). -/
def ringOf (b : Byte) : Option Ring := if b = 0 then some .ringless else if b = 1 then some .ringed else none

/-- A byte that is 00h for no or clear and 01h for yes or set, where the formats give those codes, or a field of one mark
(R229, R234). (DEDUCED, log 52.) -/
def boolOf (b : Byte) : Option Bool := if b = 0 then some false else if b = 1 then some true else none

/-- A field listed "yes or no" whose codes the formats do not give: the position of its value in that list (R233).
(DEDUCED, log 5.) -/
def yesOf (b : Byte) : Option Bool := if b = 0 then some true else if b = 1 then some false else none

/-- A fence lock mode byte, in the order of R134 (R233). -/
def lockModeOf (b : Byte) : Option LockMode :=
  if b = 0 then some .unlocked else if b = 1 then some .keyed else if b = 2 then some .held
  else if b = 3 then some .permanent else none

/-- An audit mode byte: 00h OFF to 04h INTERVAL-ONCE (R234). -/
def auditModeOf (b : Byte) : Option AuditMode :=
  if b = 0 then some .off else if b = 1 then some .command else if b = 2 then some .door
  else if b = 3 then some .interval else if b = 4 then some .intervalOnce else none

/-- A pace set: the letter byte with N and h (R32); for D, N is kept as clamped to 2–15; for A, B and C neither byte is
judged. (DEDUCED, log 88.) -/
def paceSetOf (letter n hyst : Byte) : Option PaceSet :=
  if letter = 0 then some .A else if letter = 1 then some .B else if letter = 2 then some .C
  else if letter = 3 then
    if hyst = 2 ∨ hyst = 4 ∨ hyst = 6 then some (.D (max 2 (min 15 n.toNat)) hyst.toNat) else none
  else none

/-- A prescale byte: 00h for 1, 01h for 16, 02h for 256 (R234). -/
def prescaleOf (b : Byte) : Option Nat := if b = 0 then some 1 else if b = 1 then some 16 else if b = 2 then some 256 else none

/-- A trigger level: 8, 16, 32 or 64 (R189). -/
def triggerOf (b : Byte) : Option Nat := if b = 8 ∨ b = 16 ∨ b = 32 ∨ b = 64 then some b.toNat else none

/-- A value clamped into a range without refusal. -/
def clamp (lo hi n : Nat) : Nat := max lo (min hi n)

/-- A table index, valid below `n`. -/
def indexOf (n : Nat) (b : Byte) : Option (Fin n) := if h : b.toNat < n then some ⟨b.toNat, h⟩ else none

def PromptKind.index : PromptKind → Fin 14
  | .fetch => 0 | .locate => 1 | .ring => 2 | .ringPull => 3 | .remove => 4 | .wrongReel => 5 | .threadFail => 6
  | .clean => 7 | .accessorFault => 8 | .allowance => 9 | .foreign => 10 | .rackFull => 11 | .watch => 12
  | .retire => 13

/-- Whether a kind's deadline may be loaded (R147). -/
def PromptKind.deadlineLoadable (i : Fin 14) : Bool :=
  !(i.val = 4 ∨ i.val = 8 ∨ i.val = 9 ∨ i.val = 10 ∨ i.val = 13)

/-- The bit of a condition tag (R232). -/
def CondTag.bit : CondTag → Nat
  | .ringPrompted => 0 | .fetched => 1 | .allowanceApproved => 2 | .cleanWaited => 3 | .rethreaded => 4
  | .wrongReel => 5 | .misfiledReturn => 6 | .restartClosed => 7 | .chargeClamped => 8 | .totalSaturated => 9

/-- The set with a tag added; a tag is never removed while the task lives (R50). -/
def addTag (c : CondTag) (tags : BitVec 10) : BitVec 10 := tags ||| BitVec.ofNat 10 (2 ^ c.bit)

/-- The number of an event flag (R233). -/
def EventFlag.index : EventFlag → Fin 14
  | .acctReady => 0 | .accountSaturated => 1 | .audit1Done => 2 | .audit2Done => 3 | .audit1Paused => 4
  | .audit2Paused => 5 | .audit1Overrun => 6 | .audit2Overrun => 7 | .accessorFault => 8 | .watchSeen => 9
  | .promptBacklog => 10 | .fenceStored => 11 | .linkError => 12 | .imageBad => 13

/-! ### The bay plan (R1, R2) -/

/-- A storage bay: any of 0–127 but the drive bays 8–15 and 112–119 and the racks 56, 64 and 72. -/
def storageBay (b : Nat) : Bool :=
  b < 128 ∧ ¬(8 ≤ b ∧ b ≤ 15) ∧ ¬(112 ≤ b ∧ b ≤ 119) ∧ b ≠ 56 ∧ b ≠ 64 ∧ b ≠ 72

/-- A valid cell number: its bay is a storage bay. -/
def validCell (c : CellNo) : Bool := storageBay (c / 16)

/-- The bay of a drive. -/
def driveBay (d : DriveNo) : Nat := if d.val < 16 then 8 + d.val / 2 else 112 + (d.val - 16) / 2

/-- The bay a location stands at; a gripper's is its accessor's current bay, given by `grip`. -/
def Location.bay (grip : Acc → Option Nat) : Location → Option Nat
  | .cell c => some (c / 16)
  | .drive d => some (driveBay d)
  | .entry _ => some 56
  | .handoff _ => some 64
  | .service _ => some 72
  | .gripper a => grip a
  | .outside | .unknown => none

/-- The position of a PICK or PLACE: cell position, slot number or drive face (R83). -/
def Location.pos : Location → Nat
  | .cell c => c % 16
  | .drive d => d.val % 2
  | .entry n => n.val
  | .handoff h => h.val
  | .service n => n.val
  | _ => 0

/-- Which bays an accessor reaches: A 0–79, B 48–127 (R2). -/
def reach (a : Acc) (bay : Nat) : Bool :=
  match a with
  | .A => bay ≤ 79
  | .B => 48 ≤ bay ∧ bay ≤ 127

/-- The shared zone, bays 48–79. -/
def inZone (bay : Nat) : Bool := 48 ≤ bay ∧ bay ≤ 79

/-- The retreat bay: 47 for A, 80 for B (R98). -/
def retreatBay : Acc → Nat
  | .A => 47
  | .B => 80

/-- The park bay: 0 for A, 127 for B (R98). -/
def parkBay : Acc → Nat
  | .A => 0
  | .B => 127

/-- A location is within an accessor's reach as one end of a leg (R57): a gripper is its own accessor's alone, and a
location at no bay is no end of a leg (R2). -/
def Location.within (a : Acc) (l : Location) : Bool :=
  match l with
  | .gripper g => g = a
  | .outside | .unknown => false
  | _ =>
    match l.bay (fun _ => none) with
    | some b => reach a b
    | none => false

/-- A leg is capable for an accessor when both its ends are within its reach (R57). -/
def capable (a : Acc) (src dst : Location) : Bool := src.within a && dst.within a

/-- The bays of the free-cell choice in the order of R19: nearest bay 64 first, the lower bay first at one distance;
the racks and drive bays among them hold no cell. -/
def searchBays : List Nat :=
  ((List.range 65).flatMap fun d => if d = 0 then [64] else [64 - d, 64 + d]).filter storageBay

/-- The storage cells in the order of the free-cell choice (R19). -/
def searchCells : List CellNo := searchBays.flatMap fun b => (List.range 16).map fun p => b * 16 + p

end Sys2Proof.Machine
end

