-- ==== Sys2Proof/Machine/Flags.lean ====
section
/-!
DEFINITION. Frames handed to the links, and the event flags with their generation counter and notices (R215, R219,
R221).
-/
namespace Sys2Proof.Machine

/-- A frame joins those made on the C-link (R215). (DESIGN CHOICE, log 3.) -/
def Plant.sendC (f : CFrame) (x : Plant) : Plant := { x with out.c := x.out.c ++ [f] }

/-- A frame joins those made on the M-link (R215). (DESIGN CHOICE, log 3.) -/
def Plant.sendM (f : MFrame) (x : Plant) : Plant := { x with out.m := x.out.m ++ [f] }

/-- A status to a path (R55). -/
def Plant.status (p : Path) (tag : Option Byte) (m : Mark) (s : Status) (x : Plant) : Plant :=
  x.sendC (.status p tag m s)

/-- A MGMT-REPLY carrying its command's tag (R217). -/
def Plant.reply (h : Hdr) (code : Reply) (c : Contents) (x : Plant) : Plant := x.sendC (.reply h.path h.tag code c)

/-- The paths of a mask, lowest first. (DESIGN CHOICE, log 14.) -/
def maskPaths (m : BitVec 4) : List Path := [0, 1, 2, 3].filter fun p => m.getLsbD p.val

/-- The generation after one more setting: from 4,294,967,295 it goes to 1 (R219). -/
def nextGen (g : Nat) : Nat := if g = 4294967295 then 1 else g + 1

/-- The set of flags that are set, bit n for flag n (R233). -/
def flagSet (f : Vector FlagRec 14) : BitVec 14 :=
  (List.finRange 14).foldl (fun acc i => if (f.get i).isSet then acc ||| BitVec.ofNat 14 (2 ^ i.val) else acc) 0

/-- A flag stamped with the stepped generation counter (R219). -/
def Mgu.stamp (f : EventFlag) (m : Mgu) : Mgu :=
  { m with gen := nextGen m.gen, flags := vset m.flags f.index { isSet := true, gen := nextGen m.gen } }

/-- Setting a flag (R219): the counter steps, the flag takes its value, and a NOTICE goes to every
management-capable path unless the flag's mark is clear or the library is STARTING (R221). (DESIGN CHOICE, log 14.) -/
def Plant.setFlag (e : Env) (f : EventFlag) (x : Plant) : Plant :=
  let y := { x with mgu := x.mgu.stamp f }
  if e.set.noticeMask.getLsbD f.index.val ∧ x.mgu.lib ≠ .starting then
    (maskPaths e.set.mgmtMask).foldl (fun z p => z.sendC (.notice p f y.mgu.gen (flagSet y.mgu.flags))) y
  else y

/-- Clearing a flag keeps its set-generation and the counter (R220). -/
def Plant.clearFlag (f : Fin 14) (x : Plant) : Plant :=
  { x with mgu.flags := vset x.mgu.flags f { x.mgu.flags.get f with isSet := false } }

end Sys2Proof.Machine
end

