-- ==== Sys2Proof/Machine/Ops.lean ====
section
/-!
DEFINITION. The named operations over the tables: volumes, cells, slots, the scratch pool, tasks, drives, accessors and
the leg queue. Every read and write of these tables goes through them.
-/
namespace Sys2Proof.Machine

/-! ### The volume table (R4) -/

/-- The entry of a serial. -/
def Plant.vol? (s : Serial) (x : Plant) : Option Volume := x.ltu.volumes.find? (fun v => v.serial = s)

/-- Placing a record in a table kept in serial order, over any record of the same serial. -/
def insertVolume (v : Volume) : List Volume → List Volume
  | [] => [v]
  | w :: ws =>
    if v.serial < w.serial then v :: w :: ws
    else if v.serial = w.serial then v :: ws
    else w :: insertVolume v ws

/-- Adding or replacing an entry (R4: a replacement never adds a second entry). -/
def Plant.putVol (v : Volume) (x : Plant) : Plant := { x with ltu.volumes := insertVolume v x.ltu.volumes }

/-- Changing the record of a serial in place. -/
def Plant.updVol (s : Serial) (f : Volume → Volume) (x : Plant) : Plant :=
  { x with ltu.volumes := x.ltu.volumes.map fun v => if v.serial = s then f v else v }

/-- Removing the entry of a serial. -/
def Plant.dropVol (s : Serial) (x : Plant) : Plant :=
  { x with ltu.volumes := x.ltu.volumes.filter fun v => v.serial ≠ s }

/-- The volume at a location, for a location that holds at most one (R6). -/
def Plant.volAt? (l : Location) (x : Plant) : Option Volume := x.ltu.volumes.find? (fun v => v.loc = l)

/-- Where a volume of the table is (R6). -/
def Plant.volLoc (s : Serial) (x : Plant) : Option Location := (x.vol? s).map fun v : Volume => v.loc

/-- The table holds 4,096 entries (R4). -/
def Plant.tableFull (x : Plant) : Bool := 4096 ≤ x.ltu.volumes.length

/-- The record of a new visitor bound to a task (R5, R9). -/
def Volume.visitor (s : Serial) (t : TaskNo) : Volume where
  serial := s
  cls := .visitor
  home := none
  loc := .outside
  ring := .ringless
  scratch := false
  watch := false
  ringPull := false
  misfiled := false
  worn := false
  mounts := 0
  footage := 0
  fails := 0
  refilePending := false
  bound := some t

/-! ### The cell map (R14) -/

/-- The entry of a cell; a cell not listed is EMPTY and home to no volume. (DESIGN CHOICE, log 8.) -/
def Plant.cell (c : CellNo) (x : Plant) : CellRec :=
  match x.ltu.cells.find? (fun r => r.num = c) with
  | some r => r
  | none => { num := c, occ := .empty, homeOf := none }

/-- A cell entry put at its place in a map kept in rising order. -/
def insertCell (r : CellRec) : List CellRec → List CellRec
  | [] => [r]
  | w :: ws => if r.num < w.num then r :: w :: ws else w :: insertCell r ws

/-- Writing a cell entry: the entry the map had is gone, and the new one stands in it unless it is EMPTY with no
home-of. (DESIGN CHOICE, log 8.) -/
def writeCell (r : CellRec) (l : List CellRec) : List CellRec :=
  let rest := l.filter fun w => w.num ≠ r.num
  if r.occ = .empty ∧ r.homeOf = none then rest else insertCell r rest

def Plant.putCell (r : CellRec) (x : Plant) : Plant := { x with ltu.cells := writeCell r x.ltu.cells }

/-- Changing a cell's occupancy state alone. -/
def Plant.putOcc (c : CellNo) (o : Occ) (x : Plant) : Plant := x.putCell { x.cell c with occ := o }

/-- Changing a cell's home-of field (R18). -/
def Plant.setHomeOf (c : CellNo) (h : Option Serial) (x : Plant) : Plant := x.putCell { x.cell c with homeOf := h }

/-- The free-cell choice: the first EMPTY cell that is home to no volume, in the order of R19. -/
def Plant.freeCell (x : Plant) : Option CellNo :=
  searchCells.find? fun c => (x.cell c).occ = .empty ∧ (x.cell c).homeOf = none

/-! ### Rack slots (1.5) -/

def Plant.setEntry (n : Fin 8) (s : Slot) (x : Plant) : Plant := { x with ltu.entry := vset x.ltu.entry n s }
def Plant.setService (n : Fin 8) (s : Slot) (x : Plant) : Plant := { x with ltu.service := vset x.ltu.service n s }
def Plant.setHandoff (h : Fin 4) (s : Slot) (x : Plant) : Plant := { x with mou.handoff := vset x.mou.handoff h s }
def Plant.entry (n : Fin 8) (x : Plant) : Slot := x.ltu.entry.get n
def Plant.service (n : Fin 8) (x : Plant) : Slot := x.ltu.service.get n
def Plant.handoff (h : Fin 4) (x : Plant) : Slot := x.mou.handoff.get h

/-- The lowest-numbered EMPTY service slot (R21). -/
def Plant.emptyService (x : Plant) : Option (Fin 8) :=
  (List.finRange 8).find? fun n => (x.service n).state = .empty

/-- The lowest-numbered EMPTY handoff slot (R99). -/
def Plant.emptyHandoff (x : Plant) : Option (Fin 4) :=
  (List.finRange 4).find? fun h => (x.handoff h).state = .empty

/-- A slot held for an incoming placement of a task. -/
def Slot.reserve (t : TaskNo) : Slot := { state := .reserved, content := none, task := some t }

/-- A slot taken by a reel, keeping or losing its task. -/
def Slot.hold (r : Reel) (t : Option TaskNo) : Slot := { state := .occupied, content := some r, task := t }

/-! ### The scratch pool (R22) -/

/-- A volume joins the pool at its tail, once. -/
def joinPool (s : Serial) (l : List Serial) : List Serial := if s ∈ l then l else l ++ [s]

def Plant.joinPool (s : Serial) (x : Plant) : Plant := { x with ltu.pool := Machine.joinPool s x.ltu.pool }

/-- A volume leaves the pool, from whatever position it holds. -/
def Plant.leavePool (s : Serial) (x : Plant) : Plant := { x with ltu.pool := x.ltu.pool.filter (· ≠ s) }

/-! ### Accessor contexts, tasks, drives -/

def Plant.acc (a : Acc) (x : Plant) : AccCtx :=
  match a with
  | .A => x.mou.accA
  | .B => x.mou.accB

def Plant.updAcc (a : Acc) (f : AccCtx → AccCtx) (x : Plant) : Plant :=
  match a with
  | .A => { x with mou.accA := f x.mou.accA }
  | .B => { x with mou.accB := f x.mou.accB }

def Plant.task? (t : TaskNo) (x : Plant) : Option Task := x.tcu.tasks.get t

def Plant.putTask (t : TaskNo) (k : Option Task) (x : Plant) : Plant := { x with tcu.tasks := vset x.tcu.tasks t k }

/-- Changing a task's record; nothing where the record is free. -/
def Plant.updTask (t : TaskNo) (f : Task → Task) (x : Plant) : Plant := x.putTask t ((x.task? t).map f)

/-- Every task number with its record, lowest first. -/
def Plant.taskList (x : Plant) : List (TaskNo × Task) :=
  (List.finRange 48).filterMap fun t => (x.task? t).map fun k => (t, k)

def Plant.freeRecords (x : Plant) : List TaskNo := (List.finRange 48).filter fun t => (x.task? t).isNone

/-- The record the arbiter gives: one of the free ones, which one is left open (R44). (DESIGN CHOICE, log 10.) -/
def Plant.freeRecord (x : Plant) : Option TaskNo :=
  x.freeRecords[Config.recordChoice x.tcu.choices % x.freeRecords.length]?

def Plant.drive (d : DriveNo) (x : Plant) : Drive := x.dru.drives.get d

def Plant.putDrive (d : DriveNo) (r : Drive) (x : Plant) : Plant := { x with dru.drives := vset x.dru.drives d r }

def Plant.updDrive (d : DriveNo) (f : Drive → Drive) (x : Plant) : Plant := x.putDrive d (f (x.drive d))

/-- The number of open mounts (R45, R115). -/
def Plant.openMounts (x : Plant) : Nat := ((List.finRange 32).filter fun d => (x.drive d).mountOpen).length

/-! ### Where volumes stand (R6, R7) -/

/-- A resident carries MISFILED while its location is a storage cell other than its home (R7). -/
def Volume.misfiledAt (v : Volume) (l : Location) : Bool :=
  match l with
  | .cell c => v.cls = .resident ∧ v.home ≠ some c
  | _ => false

/-- A record at a new location: MISFILED follows, and the refile pending mark goes with it (R7). -/
def Volume.at_ (l : Location) (v : Volume) : Volume :=
  { v with loc := l, misfiled := v.misfiledAt l, refilePending := v.refilePending && v.misfiledAt l }

/-- A location that several volumes may have (R6). -/
def Location.shared : Location → Bool
  | .outside | .unknown => true
  | _ => false

/-- No volume but the one kept is believed at a location any longer: where the table still has another there, it becomes
UNKNOWN, so that no two volumes have one location (R6). (DEDUCED, log 43.) -/
def Plant.evict (keep : Option Serial) (l : Location) (x : Plant) : Plant :=
  if l.shared then x
  else
    { x with ltu.volumes := x.ltu.volumes.map fun v =>
        if v.loc = l ∧ some v.serial ≠ keep then v.at_ .unknown else v }

/-- Changing a cell's occupancy state to one that names no volume in it: no volume is located there (R6, R14). -/
def Plant.setOcc (c : CellNo) (o : Occ) (x : Plant) : Plant := (x.evict none (.cell c)).putOcc c o

/-- The place a volume leaves: its cell or slot becomes EMPTY; a gripper that still shows it holds a reel of no known
volume (R81 note 2). (DESIGN CHOICE, log 80.) -/
def Plant.leaveLoc (s : Serial) (l : Location) (x : Plant) : Plant :=
  match l with
  | .cell c => if (x.cell c).occ = .occupied s then x.putOcc c .empty else x
  | .entry n => if (x.entry n).content = some (.known s) then x.setEntry n Slot.clear else x
  | .service n => if (x.service n).content = some (.known s) then x.setService n Slot.clear else x
  | .handoff h => if (x.handoff h).content = some (.known s) then x.setHandoff h Slot.clear else x
  | .gripper a => if (x.acc a).gripper = .known s then x.updAcc a ({ · with gripper := .unknownReel }) else x
  | .drive _ | .outside | .unknown => x

/-- The place a volume comes to: a cell or slot becomes OCCUPIED by it, a slot keeping its task; a gripper shows it. -/
def Plant.enterLoc (s : Serial) (l : Location) (x : Plant) : Plant :=
  match l with
  | .cell c => x.putOcc c (.occupied s)
  | .entry n => x.setEntry n (Slot.hold (.known s) (x.entry n).task)
  | .service n => x.setService n (Slot.hold (.known s) (x.service n).task)
  | .handoff h => x.setHandoff h (Slot.hold (.known s) (x.handoff h).task)
  | .gripper a => x.updAcc a ({ · with gripper := .known s })
  | .drive _ | .outside | .unknown => x

/-- Every write of a location (R6): the place left, the record, and the place entered, in one action; another volume
believed at the place entered is there no longer. (DEDUCED, log 43.) -/
def Plant.moveVol (s : Serial) (l : Location) (x : Plant) : Plant :=
  match x.vol? s with
  | none => x
  | some v => (((x.leaveLoc s v.loc).evict (some s) l).updVol s (·.at_ l)).enterLoc s l

/-- Deletion of an entry (R12, R73): its home ceases to be a home and it leaves the pool. -/
def Plant.deleteVol (s : Serial) (x : Plant) : Plant :=
  match x.vol? s with
  | none => x
  | some v =>
    let y := (x.leaveLoc s v.loc).leavePool s
    let z := match v.home with
      | some c => y.setHomeOf c none
      | none => y
    z.dropVol s

/-! ### The fence (R135) -/

/-- A serial lies in at least one enabled range. -/
def FenceCopy.covers (f : FenceCopy) (s : Serial) : Bool :=
  f.ranges.toList.any fun r => r.enabled ∧ r.first ≤ s ∧ s ≤ r.last

/-- A serial is FENCED by a copy. -/
def FenceCopy.fenced (f : FenceCopy) (s : Serial) : Bool := if f.invert then !f.covers s else f.covers s

/-- FENCED is judged against the working copy as it stands (R135). -/
def Env.fenced (e : Env) (s : Serial) : Bool := e.fence.working.fenced s

/-! ### Hold (R100) -/

/-- A hold is in force while any source is set. -/
def Env.held (e : Env) : Bool := e.hold1 || e.hold2 || e.door

/-! ### The leg queue (R91) -/

def LegClass.rank : LegClass → Nat
  | .recovery => 0 | .mount => 1 | .demount => 2 | .service => 3 | .refile => 4 | .audit => 5

/-- List 1's audit leg stands before list 2's. -/
def Owner.rank : Owner → Nat
  | .audit .two => 1
  | _ => 0

/-- Queue order: class, then (for audit legs) list, then age, then the order of joining (R91). -/
def Leg.before (now : Tick) (l m : Leg) : Bool :=
  if l.cls.rank ≠ m.cls.rank then l.cls.rank < m.cls.rank
  else if l.owner.rank ≠ m.owner.rank then l.owner.rank < m.owner.rank
  else if elapsed l.joined now ≠ elapsed m.joined now then elapsed m.joined now < elapsed l.joined now
  else l.id < m.id

/-- A leg takes its place in a queue kept in queue order. -/
def insertLeg (now : Tick) (l : Leg) : List Leg → List Leg
  | [] => [l]
  | m :: ms => if l.before now m then l :: m :: ms else m :: insertLeg now l ms

/-- A leg with its number and age joins the queue. -/
def Plant.joinQueue (e : Env) (l : Leg) (x : Plant) : Plant := { x with mou.queue := insertLeg e.tick l x.mou.queue }

/-- A new leg joins the queue at the present tick. -/
def Plant.queueLeg (e : Env) (l : Leg) (x : Plant) : Plant :=
  ({ x with mou.nextLeg := x.mou.nextLeg + 1 } : Plant).joinQueue e { l with id := x.mou.nextLeg, joined := e.tick }

/-- In working order: IDLE, STEPPING or HELD (R82). -/
def AccState.working : AccState → Bool
  | .idle | .stepping | .held => true
  | _ => false

def Leg.capableFor (l : Leg) : Acc → Bool
  | .A => l.capA
  | .B => l.capB

/-- No accessor capable of the leg is in working order (R61). -/
def Plant.legStranded (l : Leg) (x : Plant) : Bool :=
  !((l.capA && (x.acc .A).state.working) || (l.capB && (x.acc .B).state.working))

/-- A step is sent: the tag, the deadline and the frame (R83, R84). -/
def stepAllowance (bay : Option Nat) : StepKind → Nat
  | .travel b => 40 + 2 * (max b (bay.getD b) - min b (bay.getD b))
  | .pick _ _ | .place _ _ | .recover _ _ => 100
  | .read _ f l => 20 * (l - f + 1)

def Plant.sendStep (e : Env) (a : Acc) (k : StepKind) (x : Plant) : Plant :=
  let c := x.acc a
  (x.updAcc a fun c =>
    { c with step := some { kind := k, tag := c.nextTag, deadline := e.tick + ticks (stepAllowance c.bay k) },
             nextTag := c.nextTag + 1 }).sendM (.step a k c.nextTag)

/-- The accessor enters IDLE, or stays HELD while a hold is in force; MOU keeps which of the two entered IDLE first
(R81, R93). (DESIGN CHOICE, log 26.) -/
def Plant.goIdle (e : Env) (a : Acc) (x : Plant) : Plant :=
  if e.held then x.updAcc a ({ · with state := .held })
  else
    let y := x.updAcc a ({ · with state := .idle })
    { y with mou.firstIdle := a.other }

/-- A waiting claim of an accessor is withdrawn (R94). -/
def Plant.withdrawClaim (a : Acc) (x : Plant) : Plant :=
  if x.mou.claimant = some a then { x with mou.claimant := none } else x

/-- The current leg of an accessor with no step in flight ends: a waiting claim goes with it (R90). -/
def Plant.endLeg (e : Env) (a : Acc) (x : Plant) : Plant :=
  ((x.updAcc a ({ · with leg := none, ending := false })).withdrawClaim a).goIdle e a

/-- The zone is granted: the tenure timer starts, its mark clear (R95). -/
def Plant.grantZone (e : Env) (a : Acc) (x : Plant) : Plant :=
  { x with mou.holder := some a, mou.claimant := if x.mou.claimant = some a then none else x.mou.claimant,
           mou.tenureEnd := some (e.tick + ticks e.set.tenure), mou.tenure := e.set.tenure, mou.expired := false }

/-- The zone is released: a waiting claimant is granted in the same action, and its TRAVEL is sent by `settle` (R95). -/
def Plant.releaseZone (e : Env) (x : Plant) : Plant :=
  let y := { x with mou.holder := none, mou.tenureEnd := none, mou.expired := false }
  match x.mou.claimant with
  | some b => y.grantZone e b
  | none => y

end Sys2Proof.Machine
end

