-- ==== Sys2Proof/Machine/Prompts.lean ====
section
/-!
DEFINITION. The Prompt Unit: numbering, opening, the backlog, closing, ranking, rendering and the console views
(Chapter 7).
-/
namespace Sys2Proof.Machine

/-! ### Rendering (R155) -/

/-- The last `w` decimal digits of a number, with leading zeros. -/
def decimals : Nat → Nat → List Byte
  | 0, _ => []
  | w + 1, n => decimals w (n / 10) ++ [BitVec.ofNat 8 (0x30 + n % 10)]

def spaces (n : Nat) : List Byte := List.replicate n 0x20#8

/-- A text cut or padded on the right with spaces to a width. -/
def fit (w : Nat) (l : List Byte) : List Byte := (l ++ spaces (w - l.length)).take w

/-- A number of up to three digits without leading zeros. -/
def plainNumber (n : Nat) : List Byte :=
  if n < 10 then decimals 1 n else if n < 100 then decimals 2 n else decimals 3 n

def codeText : FaultCode → List Byte
  | .motor => ['M', 'O', 'T', 'O', 'R'].map fun c => BitVec.ofNat 8 c.toNat
  | .labelDevice => ['L', 'A', 'B', 'E', 'L', '-', 'D', 'E', 'V', 'I', 'C', 'E'].map fun c => BitVec.ofNat 8 c.toNat
  | .timeout => ['T', 'I', 'M', 'E', 'O', 'U', 'T'].map fun c => BitVec.ofNat 8 c.toNat
  | .position => ['P', 'O', 'S', 'I', 'T', 'I', 'O', 'N'].map fun c => BitVec.ofNat 8 c.toNat

/-- A slot as E0–E7, S0–S7 or H0–H3. -/
def slotText : Location → List Byte
  | .entry n => [0x45#8, BitVec.ofNat 8 (0x30 + n.val)]
  | .service n => [0x53#8, BitVec.ofNat 8 (0x30 + n.val)]
  | .handoff h => [0x48#8, BitVec.ofNat 8 (0x30 + h.val)]
  | _ => []

/-- The HOLD insert: DOOR, else HOLD, else spaces. -/
def holdText (e : Env) : List Byte :=
  if e.door then ['D', 'O', 'O', 'R'].map fun c => BitVec.ofNat 8 c.toNat
  else if e.hold1 || e.hold2 then ['H', 'O', 'L', 'D'].map fun c => BitVec.ofNat 8 c.toNat
  else []

/-- The text of an insert at its full width; an absent value shows as spaces. -/
def insertText (e : Env) (opens : Nat) (p : Params) : Insert → List Byte
  | .vol => fit 6 ((p.vol.map serialBytes).getD [])
  | .ser2 => fit 6 ((p.ser2.map serialBytes).getD [])
  | .drv => fit 2 ((p.drive.map fun d => decimals 2 d.val).getD [])
  | .slot => fit 2 ((p.slot.map slotText).getD [])
  | .cell => fit 4 ((p.cell.map fun c => decimals 4 c).getD [])
  | .acct => fit 3 ((p.account.map fun a => decimals 3 a.toNat).getD [])
  | .acc => fit 1 ((p.acc.map fun a => match a with | .A => [0x41#8] | .B => [0x42#8]).getD [])
  | .code => fit 12 ((p.code.map codeText).getD [])
  | .opens => let t := plainNumber opens; spaces (3 - t.length) ++ t
  | .hold => fit 4 (holdText e)

/-- One segment; an insert cut by truncation shows the leftmost characters of its value (R156). -/
def segmentText (e : Env) (opens : Nat) (p : Params) : Segment → List Byte
  | .lit t => t
  | .ins i w => (insertText e opens p i).take w

/-- A rendered line of 40 characters. -/
def renderLine (e : Env) (opens : Nat) (p : Params) (l : List Segment) : List Byte :=
  fit 40 (l.flatMap (segmentText e opens p))

/-! ### Ranking and views (R152, R158, R159) -/

/-- The open prompts in rank: urgency first, then the order of opening, which is the order of the table. -/
def ranked (l : List Prompt) : List Prompt :=
  l.filter (fun p => 3 ≤ p.urgency) ++ l.filter (fun p => p.urgency = 2) ++ l.filter (fun p => p.urgency = 1)
    ++ l.filter (fun p => p.urgency = 0)

def Prompt.skippedAt (p : Prompt) : Console → Bool
  | .one => p.skip1
  | .two => p.skip2

/-- A console's view: the highest-ranked open prompt it has not skipped. -/
def Pru.view (c : Console) (u : Pru) : Option Prompt := (ranked u.table).find? fun p => !p.skippedAt c

def Pru.con (c : Console) (u : Pru) : ConsoleCtx :=
  match c with
  | .one => u.con1
  | .two => u.con2

def Plant.updCon (c : Console) (k : ConsoleCtx) (x : Plant) : Plant :=
  match c with
  | .one => { x with pru.con1 := k }
  | .two => { x with pru.con2 := k }

/-- The number the OPEN insert shows. -/
def Pru.opens (u : Pru) : Nat := u.table.length + u.backlog.length

/-- The two lines of a view (R158): the kind's template with the prompt's parameters, or IDLE. -/
def Plant.viewLines (e : Env) (v : Option Prompt) (x : Plant) : List Byte × List Byte :=
  let n := x.pru.opens
  match v with
  | some p =>
    let t := e.set.templates.get ⟨p.kind.index.val, by omega⟩
    (renderLine e n p.params t.line1, renderLine e n p.params t.line2)
  | none =>
    let t := e.set.templates.get 14
    (renderLine e n {} t.line1, renderLine e n {} t.line2)

/-- Judging one console's view: a DISPLAY is sent when the shown prompt, its urgency or a line differs (R159). -/
def Plant.judgeView (e : Env) (c : Console) (x : Plant) : Plant :=
  let v := x.pru.view c
  let k : ConsoleCtx :=
    { shown := v.map (·.number), urgency := v.map (·.urgency), lines := some (x.viewLines e v) }
  if x.pru.con c = k then x
  else
    (x.updCon c k).sendM (.display c k.shown (v.map (·.kind)) ((v.map (·.urgency)).getD 0)
      (v.map (·.urgency) = some 3) (x.viewLines e v).1 (x.viewLines e v).2)

/-- Judging both views. No view is judged before the start image read has ended (R169). Where one event changes both,
console 1 is judged, and its DISPLAY sent, before console 2: R152 and R169 give no order (DESIGN CHOICE, log 94). -/
def Plant.judgeViews (e : Env) (x : Plant) : Plant :=
  if x.mgu.lib = .starting then x else (x.judgeView e .one).judgeView e .two

/-! ### Numbers, opening, the backlog (R149, R150) -/

/-- The requests that wait: those of the backlog, and those made while an answer is delivered (R150, R151). -/
def Pru.waiting (u : Pru) : List PromptRequest := u.backlog ++ u.later.getD []

def Pru.numberHeld (n : Nat) (u : Pru) : Bool :=
  u.table.any (fun p => p.number = n) || u.waiting.any (fun r => r.number = n)

/-- The next number after `n`, counting from 65,535 back to 1 and passing over numbers held. -/
def Pru.nextNumber (u : Pru) : Nat → Nat → Nat
  | 0, n => if n = 65535 then 1 else n + 1
  | k + 1, n =>
    let m := if n = 65535 then 1 else n + 1
    if u.numberHeld m then u.nextNumber k m else m

/-- The deadline, escalation interval and urgency in force for a kind. -/
def Env.times (e : Env) (k : PromptKind) : PromptTimes := e.set.times.get k.index

/-- A request enters the prompt table (R149). -/
def Plant.openPrompt (e : Env) (r : PromptRequest) (x : Plant) : Plant :=
  let t := e.times r.kind
  let p : Prompt :=
    { number := r.number, kind := r.kind, params := r.params, owner := r.owner, urgency := t.urgency, opened := e.tick,
      order := x.pru.openings, nextEsc := if t.escalation = 0 then none else some (e.tick + ticks t.escalation),
      escEvery := t.escalation, deadline := if t.deadline = 0 then none else some (e.tick + ticks t.deadline),
      skip1 := false, skip2 := false }
  ({ x with pru.table := x.pru.table ++ [p], pru.openings := x.pru.openings + 1 } : Plant).judgeViews e

/-- The kinds whose answers move no reel and end no task (R150). -/
def PromptKind.informational : PromptKind → Bool
  | .wrongReel | .watch | .retire => true
  | _ => false

/-- A FOREIGN request of an audit reading (R150). -/
def PromptRequest.auditForeign (r : PromptRequest) : Bool :=
  r.kind = .foreign && (match r.owner with | .acc _ => true | _ => false)

/-- Removing the last entry that satisfies a test. -/
def dropLast (p : PromptRequest → Bool) (l : List PromptRequest) : List PromptRequest :=
  (l.reverse.eraseP p).reverse

/-- The backlog makes room for a request that may not be discarded: the youngest informational request goes, else the
youngest FOREIGN request of an audit reading (R150). -/
def makeRoom (l : List PromptRequest) : List PromptRequest :=
  if l.any (fun r => r.kind.informational) then dropLast (fun r => r.kind.informational) l
  else dropLast PromptRequest.auditForeign l

/-- A request joins the backlog's tail, and PROMPT-BACKLOG is set (R150). -/
def Plant.joinBacklog (e : Env) (r : PromptRequest) (x : Plant) : Plant :=
  ((({ x with pru.backlog := x.pru.backlog ++ [r] } : Plant).setFlag e .promptBacklog)).judgeViews e

/-- A request that has its number opens, joins the backlog, displaces, or is discarded (R149, R150). -/
def Plant.place (e : Env) (r : PromptRequest) (x : Plant) : Plant :=
  if x.pru.table.length < 32 then x.openPrompt e r
  else if x.pru.backlog.length < 96 then x.joinBacklog e r
  else if r.kind.informational then x
  else
    let room := makeRoom x.pru.backlog
    if room.length < 96 then ({ x with pru.backlog := room } : Plant).joinBacklog e r else x

/-- A prompt request (R149): it is given its number, which is returned, and is placed; one made while an answer is
delivered waits until the backlog's head has been opened (R151). -/
def Plant.request (e : Env) (k : PromptKind) (p : Params) (o : PromptOwner) (x : Plant) : Plant × Nat :=
  let n := x.pru.nextNumber 225 x.pru.lastNumber
  let r : PromptRequest := { number := n, kind := k, params := p, owner := o }
  let y := { x with pru.lastNumber := n }
  match x.pru.later with
  | some l => ({ y with pru.later := some (l ++ [r]) }, n)
  | none => (y.place e r, n)

/-- A request whose number the requester does not keep. -/
def Plant.ask (e : Env) (k : PromptKind) (p : Params) (o : PromptOwner) (x : Plant) : Plant := (x.request e k p o).1

/-! ### Closing (R151, R166) -/

/-- The prompt leaves the table, or the requests that wait, and its number is free. -/
def Plant.removePrompt (n : Nat) (x : Plant) : Plant :=
  { x with pru.table := x.pru.table.filter (fun p => p.number ≠ n),
           pru.backlog := x.pru.backlog.filter (fun r => r.number ≠ n),
           pru.later := x.pru.later.map fun l => l.filter (fun r => r.number ≠ n) }

/-- The backlog's head takes a free entry of the table, if there is one (R151 step 3). -/
def Plant.openHead (e : Env) (x : Plant) : Plant :=
  match x.pru.backlog with
  | r :: rest =>
    if x.pru.table.length < 32 then ({ x with pru.backlog := rest } : Plant).openPrompt e r else x
  | [] => x

/-- The requests made while an answer was delivered are taken, in the order they were made (R151). (DEDUCED, log 24.) -/
def Plant.takeLater (e : Env) (x : Plant) : Plant :=
  (x.pru.later.getD []).foldl (fun y r => y.place e r) { x with pru.later := none }

/-- A prompt closes by an answer (R151): it is removed; its owner acts; the backlog's head is opened; the requests the
owner made are taken; and the views are judged. -/
def Plant.closing (e : Env) (n : Nat) (act : Plant → Plant) (x : Plant) : Plant :=
  let y := act { x.removePrompt n with pru.later := some [] }
  ((y.openHead e).takeLater e).judgeViews e

/-- An owner's withdrawal or resolution of its own prompt, open or backlogged: nothing is delivered (R166). -/
def Plant.withdraw (e : Env) (n : Nat) (x : Plant) : Plant :=
  if x.pru.numberHeld n then ((x.removePrompt n).openHead e).judgeViews e else x

/-- The open prompt of a number. -/
def Pru.find? (n : Nat) (u : Pru) : Option Prompt := u.table.find? fun p => p.number = n

/-- The number of an open or backlogged prompt of a kind and owner. -/
def Pru.numberOf (k : PromptKind) (o : PromptOwner) (u : Pru) : Option Nat :=
  match u.table.find? (fun p => p.kind = k ∧ p.owner = o) with
  | some p => some p.number
  | none => (u.backlog.find? fun r => r.kind = k ∧ r.owner = o).map (·.number)

/-- The kind of a prompt that is open or waits. -/
def Pru.kindOf (n : Nat) (u : Pru) : Option PromptKind :=
  match u.find? n with
  | some p => some p.kind
  | none => (u.waiting.find? fun r => r.number = n).map (·.kind)

/-- The number and second serial of the FOREIGN prompt that names a cell, open or backlogged (R208). -/
def Pru.foreignAt (c : CellNo) (u : Pru) : Option (Nat × Option Serial) :=
  match u.table.find? (fun p => p.kind = .foreign ∧ p.params.cell = some c) with
  | some p => some (p.number, p.params.ser2)
  | none => (u.backlog.find? fun r => r.kind = .foreign ∧ r.params.cell = some c).map fun r => (r.number, r.params.ser2)

/-- An open prompt names a service slot (R77). -/
def Pru.namesSlot (l : Location) (u : Pru) : Bool := u.table.any fun p => p.params.slot = some l

/-- A BEEP to a console (R159). -/
def Plant.beep (c : Console) (x : Plant) : Plant := x.sendM (.beep c)

end Sys2Proof.Machine
end

