-- ==== Sys2Proof/Machine/Drives.lean ====
section
/-!
DEFINITION. The Drive Unit's own changes of a drive entry: binding, placement, take-up after a pick, cleaning, faults
(Chapter 5). The reports are taken in DriveReports.lean.
-/
namespace Sys2Proof.Machine

/-- The state events act on: for a FAULTED drive its pre-fault state (R128). -/
def Drive.eff (r : Drive) : DriveState := if r.state = .faulted then r.preFault.getD .empty else r.state

/-- Writing the state events act on (R128). -/
def Drive.setEff (s : DriveState) (r : Drive) : Drive :=
  if r.state = .faulted then { r with preFault := some s } else { r with state := s }

/-- The drive would become EMPTY: an offline-pending drive becomes OFFLINE instead and the flag is cleared (R127). A
FAULTED drive's pre-fault state becomes EMPTY and the flag waits for its ONLINE (R128). (DEDUCED, log 31.) -/
def Drive.emptied (r : Drive) : Drive :=
  if r.state = .faulted then { r with preFault := some .empty }
  else if r.offlinePending then { r with state := .offline, offlinePending := false }
  else { r with state := .empty }

/-- Binding a drive to a mount task (R119). -/
def Drive.bind (t : TaskNo) (r : Drive) : Drive :=
  let s := { r with bound := some t, mountOpen := true, rethreadDone := false, unloadSeen := false }
  if r.state = .empty then { s with state := .reserved } else s

/-- Unbinding (R119): a RESERVED drive becomes EMPTY, with offline-pending applied. -/
def Drive.unbind (r : Drive) : Drive :=
  let s := { r with bound := none, mountOpen := false }
  if r.eff = .reserved then s.emptied else s

/-- Cleaning is due (R125 step 2). -/
def Drive.cleaningDue (r : Drive) : Bool := r.interval ≠ 0 ∧ r.interval ≤ r.footage

/-- Footage is added to footage since cleaning, saturating. -/
def Drive.addFootage (n : Nat) (r : Drive) : Drive := { r with footage := satAdd 4294967295 r.footage n }

/-- A report that the drive's state does not take (R129). -/
def Drive.strayed (r : Drive) : Drive := { r with stray := satAdd 65535 r.stray 1 }

/-- A drive becomes CLEAN-DUE and asks for its CLEAN prompt (R125 step 4). -/
def Plant.cleanDue (e : Env) (d : DriveNo) (x : Plant) : Plant :=
  (x.updDrive d (·.setEff .cleanDue)).ask e .clean { drive := some d } (.drive d)

/-- The drive after its reel has left it (R125): cleared, then OFFLINE, CLEAN-DUE or EMPTY. -/
def Plant.takeUp (e : Env) (d : DriveNo) (x : Plant) : Plant :=
  let y := x.updDrive d ({ · with volume := none, unloadSeen := false, rethreadDone := false })
  let r := y.drive d
  if r.offlinePending then y.updDrive d (·.emptied)
  else if r.cleaningDue then y.cleanDue e d
  else y.updDrive d (·.emptied)

/-- A command to a drive controller (R124). -/
def Plant.driveCommand (d : DriveNo) (c : DriveCmd) (x : Plant) : Plant := x.sendM (.drive d c)

/-- A placement onto a drive (R120); onto a HELD-REEL drive it is a put-back and only the volume changes (R130). -/
def Drive.placed (s : Option Serial) (r : Drive) : Drive :=
  let y := { r with volume := s }
  if r.eff = .reserved then y.setEff .threading else y

/-- A PLACE-BLOCKED at a drive, its binding already cleared (R120). -/
def Drive.blocked (r : Drive) : Drive := { r with state := .faulted, preFault := some .empty }

end Sys2Proof.Machine
end

