-- ==== Sys2Proof/Machine/Tasks.lean ====
section
/-!
DEFINITION. The Task Controller's shared operations: interim statuses and resting states, reservations, legs and waits,
the plan of each kind of task, returns and endings (Chapter 3, R50–R53).
-/
namespace Sys2Proof.Machine

def TaskKind.isMount : TaskKind → Bool
  | .mount | .mountScratch => true
  | _ => false

/-! ### Statuses and resting states (R51, R55) -/

/-- An interim status to the task's path, while its order is unanswered (R51 note 3). -/
def Plant.interim (t : TaskNo) (st : Status) (x : Plant) : Plant :=
  match x.task? t with
  | some k =>
    match k.origin with
    | .path p tag => if k.answered then x else x.status p (some tag) .interim st
    | _ => x
  | none => x

/-- The order's final status, once (R53, R55). -/
def Plant.answer (t : TaskNo) (st : Status) (x : Plant) : Plant :=
  match x.task? t with
  | some k =>
    match k.origin with
    | .path p tag =>
      if k.answered then x
      else (x.updTask t ({ · with answered := true })).status p (some tag) .last st
    | _ => x
  | none => x

/-- The task rests in WAITING for a reason; a demounting task stays in DEMOUNTING, its prompt, if it had one, closed (R51,
R58, R60). (DEDUCED, log 32.) -/
def Plant.enterWaiting (t : TaskNo) (r : WaitReason) (x : Plant) : Plant :=
  match x.task? t with
  | some k =>
    if k.state = .demounting then x.updTask t ({ · with prompt := none })
    else if k.state = .waiting ∧ k.wait = some r then x
    else (x.updTask t ({ · with state := .waiting, wait := some r, prompt := none })).interim t (.waiting r)
  | none => x

/-- The task rests in OPWAIT on a prompt; a demounting task stays in DEMOUNTING and holds the reference (R51 note 2).
(DEDUCED, log 32.) -/
def Plant.enterOpwait (t : TaskNo) (n : Nat) (kd : PromptKind) (x : Plant) : Plant :=
  match x.task? t with
  | some k =>
    if k.state = .demounting then x.updTask t ({ · with prompt := some n })
    else (x.updTask t ({ · with state := .opwait, wait := none, prompt := some n })).interim t (.operator kd)
  | none => x

/-- The task's legs are queued: MOVING, with the interim status MOVING when it leaves its admission, WAITING or OPWAIT
(R80). -/
def Plant.enterMoving (t : TaskNo) (x : Plant) : Plant :=
  match x.task? t with
  | some k =>
    if k.state = .demounting then x.updTask t ({ · with prompt := none, wait := none })
    else
      let y := x.updTask t ({ · with state := .moving, wait := none, prompt := none })
      if k.state = .moving then y else y.interim t .moving
  | none => x

def Plant.tag (t : TaskNo) (c : CondTag) (x : Plant) : Plant := x.updTask t fun k => { k with tags := addTag c k.tags }

/-- Opening a prompt owned by a task on which the task rests. -/
def Plant.taskPrompt (e : Env) (t : TaskNo) (kd : PromptKind) (p : Params) (x : Plant) : Plant :=
  let r := x.request e kd p (.task t)
  r.1.enterOpwait t r.2 kd

/-! ### Where a task's reel stands -/

/-- The volume record of a task that has a volume serial. -/
def Plant.taskVol (k : Task) (x : Plant) : Option Volume := k.serial.bind fun s => x.vol? s

/-- Where the task's reel stands: its volume's location, or the recorded place of a reel without a serial. -/
def Plant.reelAt (k : Task) (x : Plant) : Option Location :=
  match k.serial with
  | some s => (x.vol? s).map (·.loc)
  | none => k.source

/-- A live task, or the leg that carries a wrong reel off, holds the reel in a gripper (R77): a leg from it waits in the
queue, the leg in hand has picked it, or a task's plan goes on from it. -/
def Plant.gripHeld (a : Acc) (x : Plant) : Bool :=
  x.mou.queue.any (fun l => l.src = .gripper a)
    || (x.acc a).leg.any (fun l => l.picked && (match l.owner with | .found _ _ => l.work = .carry | _ => true))
    || x.taskList.any fun p => p.2.holding = some a && x.reelAt p.2 = some (.gripper a)

/-- A live task holds the reel of a drive: a RECOVERY task whose pick from the drive has not been made (R77). -/
def Plant.driveHeld (d : DriveNo) (x : Plant) : Bool :=
  x.taskList.any fun p => p.2.serial.isNone && p.2.source = some (.drive d)

/-! ### Reservations (R15, R21, R58, R99) -/

/-- A cell reservation the task holds becomes EMPTY. -/
def Plant.releaseCell (t : TaskNo) (x : Plant) : Plant :=
  match (x.task? t).bind (·.cell) with
  | some c =>
    let y := x.updTask t ({ · with cell := none })
    match (x.cell c).occ with
    | .reserved _ u => if u = t then y.setOcc c .empty else y
    | _ => y
  | none => x

/-- A handoff slot reserved for a placement not yet made becomes EMPTY. -/
def Plant.releaseHandoff (t : TaskNo) (x : Plant) : Plant :=
  match (x.task? t).bind (·.handoff) with
  | some h =>
    if (x.handoff h).state = .reserved ∧ (x.handoff h).task = some t then
      (x.updTask t ({ · with handoff := none })).setHandoff h Slot.clear
    else x
  | none => x

/-- A service slot reserved for a placement not yet made becomes EMPTY. -/
def Plant.releaseService (t : TaskNo) (x : Plant) : Plant :=
  match (x.task? t).bind (·.service) with
  | some n =>
    if (x.service n).state = .reserved ∧ (x.service n).task = some t then
      (x.updTask t ({ · with service := none })).setService n Slot.clear
    else x
  | none => x

/-- Entry slots claimed by the task become EMPTY, a volume there going to OUTSIDE (R20). -/
def Plant.releaseEntries (t : TaskNo) (x : Plant) : Plant :=
  (List.finRange 8).foldl (fun y n =>
    if (y.entry n).state = .occupied ∧ (y.entry n).task = some t then
      match y.volAt? (.entry n) with
      | some v => (y.moveVol v.serial .outside).setEntry n Slot.clear
      | none => y.setEntry n Slot.clear
    else y) x

/-- A cell reserved for a task's placement (R15). -/
def Plant.reserveCell (t : TaskNo) (s : Serial) (c : CellNo) (x : Plant) : Plant :=
  (x.setOcc c (.reserved (some s) t)).updTask t ({ · with cell := some c })

/-- A RECOVERY request joins those waiting, unless the reel's request already waits (R44 note 1). -/
def Plant.requestRecovery (r : Request) (x : Plant) : Plant :=
  if r ∈ x.tcu.requests then x else { x with tcu.requests := x.tcu.requests ++ [r] }

/-- A RECOVERY request is dropped. -/
def Plant.dropRequest (r : Request) (x : Plant) : Plant :=
  { x with tcu.requests := x.tcu.requests.filter (· ≠ r) }

/-! ### Legs that go (R90) -/

/-- Legs of a task leave the queue; a taken leg ends at once, or at the completion of its step in flight (R90). -/
def Plant.dropLegs (e : Env) (t : TaskNo) (x : Plant) : Plant :=
  let y := { x with mou.queue := x.mou.queue.filter (fun l => l.owner ≠ .task t) }
  [Acc.A, Acc.B].foldl (fun z a =>
    match (z.acc a).leg with
    | some l =>
      if l.owner = .task t then
        if (z.acc a).step.isSome then z.updAcc a ({ · with ending := true }) else z.endLeg e a
      else z
    | none => z) y

/-- A leg that a new plan of its task takes the place of while a step of it is in flight: it is still shown as the task's, and
what its step brings no longer moves the plan (R67 step 3, R68). (DEDUCED, log 34.) -/
def Leg.supersede (t : TaskNo) (l : Leg) : Leg := if l.owner = .task t then { l with owner := .found t true } else l

/-- A task's legs go before it is planned anew; one with a step in flight ends at that step's completion, and the new plan
stands meanwhile (R67 step 3, R68, R90). -/
def Plant.supersede (e : Env) (t : TaskNo) (x : Plant) : Plant :=
  let y := x.dropLegs e t
  { y with mou := { y.mou with accA := { y.mou.accA with leg := y.mou.accA.leg.map (·.supersede t) },
                               accB := { y.mou.accB with leg := y.mou.accB.leg.map (·.supersede t) } } }

/-! ### Waiters (R58, R60) -/

/-- The task becomes a waiter of a rack, with the movement it waits to make; a task that waits for a slot has no leg. -/
def Plant.becomeWaiter (e : Env) (t : TaskNo) (w : Work) (r : Waiter) (x : Plant) : Plant :=
  (x.supersede e t).updTask t ({ · with work := some w, waiter := some r })

/-- The task becomes a service waiter; the first of a run sets the rack-full mark and opens the RACK-FULL prompt. -/
def Plant.waitService (e : Env) (t : TaskNo) (w : Work) (x : Plant) : Plant :=
  let y := (x.becomeWaiter e t w .service).enterWaiting t .service
  if y.tcu.rackFull then y
  else ({ y with tcu.rackFull := true } : Plant).ask e .rackFull {} (.task t)

/-- The service slot a task holds: the one of its record, while the slot's task is the task (R21). -/
def Plant.slotHeld (t : TaskNo) (x : Plant) : Option (Fin 8) :=
  ((x.task? t).bind (·.service)).filter fun n => (x.service n).task = some t

/-- The task's service slot: the one it holds, else the lowest EMPTY one, now reserved; none when it must wait (R21, R60). -/
def Plant.secureService (e : Env) (t : TaskNo) (w : Work) (x : Plant) : Plant × Option (Fin 8) :=
  match x.slotHeld t with
  | some n => (x, some n)
  | none =>
    match x.emptyService with
    | some n => ((x.setService n (Slot.reserve t)).updTask t ({ · with service := some n }), some n)
    | none => (x.waitService e t w, none)

/-- The oldest of a list of waiters: by admitted tick, then by the lower task number (R58, R60). -/
def oldest (now : Tick) : List (TaskNo × Task) → Option (TaskNo × Task)
  | [] => none
  | w :: ws =>
    match oldest now ws with
    | none => some w
    | some v => if elapsed w.2.admitted now < elapsed v.2.admitted now then some v else some w

def Plant.waiters (w : Waiter) (x : Plant) : List (TaskNo × Task) := x.taskList.filter fun p => p.2.waiter = some w

/-- The rack-full mark and its prompt follow the service waiters: the prompt passes to the oldest remaining waiter, and
is RESOLVED when none remains (R60, R166). -/
def Plant.followRackFull (e : Env) (x : Plant) : Plant :=
  if x.tcu.rackFull then
    match oldest e.tick (x.waiters .service) with
    | none =>
      let y := { x with tcu.rackFull := false }
      match (y.pru.table.find? fun p => p.kind = .rackFull).map (·.number) with
      | some n => y.withdraw e n
      | none =>
        match (y.pru.backlog.find? fun r => r.kind = .rackFull).map (·.number) with
        | some n => y.withdraw e n
        | none => y
    | some (t, _) =>
      let keep (o : PromptOwner) : PromptOwner :=
        match o with
        | .task u => if ((x.task? u).bind (·.waiter)) = some .service then o else .task t
        | _ => .task t
      { x with pru.table := x.pru.table.map fun p => if p.kind = .rackFull then { p with owner := keep p.owner } else p,
               pru.backlog := x.pru.backlog.map fun r => if r.kind = .rackFull then { r with owner := keep r.owner } else r }
  else x

/-! ### Volumes that must be found (R62, R63) -/

/-- A FETCH or LOCATE prompt for the task's volume, with the drive and account for a mount kind alone (R62, R63,
R146). -/
def Plant.planFind (e : Env) (t : TaskNo) (kd : PromptKind) (x : Plant) : Plant :=
  match x.task? t with
  | none => x
  | some k =>
    let mounting : Bool := k.kind.isMount && k.state ≠ .demounting
    (x.updTask t ({ · with holding := none })).taskPrompt e t kd
      { vol := k.serial, drive := if mounting then k.drive else none,
        account := if mounting && kd = .fetch then some k.account else none }

/-! ### Legs of tasks (R56, R57) -/

/-- The class of a task's leg, by the work it does (R56). -/
def Task.legClass (k : Task) (w : Work) : LegClass :=
  match k.kind with
  | .mount | .mountScratch =>
    match w with
    | .toDrive | .ringStop => .mount
    | _ => .demount
  | .enter | .eject => .service
  | .refile => .refile
  | .recovery => .recovery

/-- The task's state once its leg stands in the queue: WAITING for reason ZONE when no accessor capable of it is in
working order, else MOVING (R61, R62). -/
def Plant.legQueued (t : TaskNo) (l : Leg) (x : Plant) : Plant :=
  if x.legStranded l then x.enterWaiting t .zone else x.enterMoving t

/-- A leg of a task joins the queue (R56); a leg whose source is a gripper has no PICK. -/
def Plant.queueTaskLeg (e : Env) (t : TaskNo) (w : Work) (src : Location) (dst onward : Option Location)
    (capA capB : Bool) (x : Plant) : Plant :=
  match x.task? t with
  | none => x
  | some k =>
    let l : Leg :=
      { id := 0, owner := .task t, cls := k.legClass w, src := src, dst := dst, onward := onward, capA := capA,
        capB := capB, steps := 0, joined := e.tick, picked := (match src with | .gripper _ => true | _ => false),
        work := w, bay := 0, pos := 0, last := 0 }
    ((x.updTask t ({ · with work := some w, waiter := none })).queueLeg e l).legQueued t l

/-- A movement from `src` to `dst`: one leg where an accessor is capable of it, and a handoff slot reserved for an earlier
plan is given up; else leg 1 to a handoff slot with leg 2 to follow, or a wait for a slot (R57, R58). -/
def Plant.route (e : Env) (t : TaskNo) (w : Work) (src dst : Location) (x : Plant) : Plant :=
  if capable .A src dst || capable .B src dst then
    (x.releaseHandoff t).queueTaskLeg e t w src (some dst) none (capable .A src dst) (capable .B src dst)
  else
    let held := (x.task? t).bind fun k => k.handoff.filter fun h => (x.handoff h).state = .reserved
    match held.or x.emptyHandoff with
    | some h =>
      let y := (x.setHandoff h (Slot.reserve t)).updTask t ({ · with handoff := some h })
      y.queueTaskLeg e t w src (some (.handoff h)) (some dst) (src.within .A) (src.within .B)
    | none => (x.becomeWaiter e t w .handoff).enterWaiting t .handoff

/-- The task's volume stands on a drive that is not the task's: a wrong reel's put-back (R67), which the RECOVERY task asked
for the drive brings to the task (R68, R77). -/
def Plant.onOtherDrive (t : TaskNo) (k : Task) (x : Plant) : Bool :=
  k.serial.isSome && (match x.reelAt k with
    | some (.drive d) => (x.drive d).bound ≠ some t
    | _ => false)

/-- The movement a task's work asks for, from where its reel stands. A volume at OUTSIDE or UNKNOWN has no bay, and is the
source of no leg (R2): it is asked for (R63). One put back on a drive that is not the task's is the source of no leg of the
task, which rests in MOVING until the reel is handed over to it (R68). (DESIGN CHOICE, log 91.) A leg from an entry slot is
queued only with a service slot also reserved (R62, R63); a leg to the drive only while the drive is RESERVED (R61). -/
def Plant.planMove (e : Env) (t : TaskNo) (w : Work) (x : Plant) : Plant :=
  let x := x.updTask t ({ · with work := some w, waiter := none, faulted := none })
  match x.task? t with
  | none => x
  | some k =>
    if x.onOtherDrive t k then (x.updTask t ({ · with holding := none })).enterMoving t
    else
    match x.reelAt k with
    | none => x
    | some .outside => x.planFind e t .fetch
    | some .unknown => x.planFind e t .locate
    | some src =>
      let x := x.updTask t ({ · with holding := match src with | .gripper a => some a | _ => none })
      let fromEntry : Bool := match src with | .entry _ => true | _ => false
      let secured := if fromEntry then x.secureService e t w else (x, none)
      match w with
      | .toDrive =>
        match k.drive with
        | none => x
        | some d =>
          if fromEntry ∧ secured.2 = none then secured.1
          else if (capable .A src (.drive d) || capable .B src (.drive d)) ∧ (x.drive d).state ≠ .reserved then
            secured.1.enterWaiting t .driveFree
          else secured.1.route e t w src (.drive d)
      | .store =>
        match k.cell with
        | none => x
        | some c => if fromEntry ∧ secured.2 = none then secured.1 else secured.1.route e t w src (.cell c)
      | .ringStop | .ringPull | .remove | .returnSlot | .foreign | .handover _ =>
        match x.secureService e t w with
        | (y, some n) => y.route e t w src (.service n)
        | (y, none) => y
      | .identify =>
        match x.secureService e t w with
        | (y, some _) => y.queueTaskLeg e t w src none none (src.within .A) (src.within .B)
        | (y, none) => y
      | .carry => x

/-- A reel already standing in a service slot: the slot's task becomes this task (R62, R77). (DEDUCED, log 54.) -/
def Plant.adoptSlot (t : TaskNo) (n : Fin 8) (x : Plant) : Plant :=
  let y := if (x.task? t).bind (·.service) = some n then x else x.releaseService t
  ((y.setService n { y.service n with task := some t }).updTask t ({ · with service := some n, waiter := none })).dropRequest (.service n)

/-- A prompt about the reel in service slot `n`. -/
def Plant.slotPrompt (e : Env) (t : TaskNo) (kd : PromptKind) (n : Fin 8) (withDrive : Bool) (x : Plant) : Plant :=
  match x.task? t with
  | none => x
  | some k =>
    x.taskPrompt e t kd
      { vol := k.serial, slot := some (.service n), drive := if withDrive then k.drive else none,
        ser2 := if kd = .foreign then k.readSerial else none }

/-! ### Plans (R59, R62, R71, R73–R78) -/

/-- Removal through the service rack: a REMOVE prompt at once for a reel already in a service slot, where the requester
and the order are answered at its DONE (R38, R59, R73). (DESIGN CHOICE, log 74.) -/
def Plant.planRemove (e : Env) (t : TaskNo) (x : Plant) : Plant :=
  match (x.task? t).bind fun k => x.reelAt k with
  | some (.service n) => (x.adoptSlot t n).slotPrompt e t .remove n false
  | _ => x.planMove e t .remove

/-- A placement of a resident by the free-cell choice, with the tag MISFILED-RETURN; where it finds no cell, through the
service rack for removal (R59). -/
def Plant.planFreeCell (e : Env) (t : TaskNo) (s : Serial) (x : Plant) : Plant :=
  match x.freeCell with
  | some c => ((x.reserveCell t s c).tag t .misfiledReturn).planMove e t .store
  | none => x.planRemove e t

/-- The destination of a resident's placement (R59): its home if EMPTY, else the free-cell choice with the tag
MISFILED-RETURN, else the service rack for removal. A reservation already held is kept. (DEDUCED, log 67.) -/
def Plant.planStore (e : Env) (t : TaskNo) (x : Plant) : Plant :=
  match x.task? t with
  | none => x
  | some k =>
    match x.taskVol k with
    | none => x
    | some v =>
      if k.cell.isSome then x.planMove e t .store
      else if v.cls = .visitor then x.planRemove e t
      else
        match v.home.filter (fun c => (x.cell c).occ = .empty) with
        | some c => (x.reserveCell t v.serial c).planMove e t .store
        | none => x.planFreeCell e t v.serial

/-- The RING prompt of a ring stop (R64). -/
def Plant.ringPrompt (e : Env) (t : TaskNo) (n : Fin 8) (x : Plant) : Plant :=
  (x.tag t .ringPrompted).slotPrompt e t .ring n true

/-- The plan of a mount kind from its volume's location (R62). -/
def Plant.planMount (e : Env) (t : TaskNo) (x : Plant) : Plant :=
  match x.task? t with
  | none => x
  | some k =>
    match x.taskVol k with
    | none => x
    | some v =>
      let stop : Bool := k.intent = .write && v.ring = .ringless
      match v.loc with
      | .outside => x.planFind e t .fetch
      | .unknown => x.planFind e t .locate
      | .service n =>
        let y := x.adoptSlot t n
        if stop then y.ringPrompt e t n else y.planMove e t .toDrive
      | _ => if stop then x.planMove e t .ringStop else x.planMove e t .toDrive

/-- The plan of a demount (R71): the ring pull, or the way home; a visitor goes to removal. (DEDUCED, log 67.) -/
def Plant.planDemount (e : Env) (t : TaskNo) (x : Plant) : Plant :=
  match x.task? t with
  | none => x
  | some k =>
    match x.taskVol k with
    | none => x
    | some v =>
      match v.loc with
      | .outside => x.planFind e t .fetch
      | .unknown => x.planFind e t .locate
      | l =>
        if v.cls = .visitor then x.planRemove e t
        else if v.ringPull ∧ v.ring = .ringed ∧ !k.ringKept then
          match l with
          | .service n => (x.adoptSlot t n).slotPrompt e t .ringPull n false
          | _ => x.planMove e t .ringPull
        else
          match l with
          | .service n => (x.adoptSlot t n).planStore e t
          | _ => x.planStore e t

/-- The plan of an ENTER, RECOVERY or REFILE task whose volume is known: a resident to its cell, a visitor to removal (R74,
R76, R77). One whose volume has become UNKNOWN asks for it, a REFILE task too. (DEDUCED, log 67; DESIGN CHOICE,
log 87.) -/
def Plant.planSettle (e : Env) (t : TaskNo) (x : Plant) : Plant :=
  match x.task? t with
  | none => x
  | some k =>
    match x.taskVol k with
    | none => x
    | some v =>
      match v.loc with
      | .outside => x.planFind e t .fetch
      | .unknown => x.planFind e t .locate
      | .service n => if v.cls = .visitor then x.planRemove e t else (x.adoptSlot t n).planStore e t
      | _ => if v.cls = .visitor then x.planRemove e t else x.planStore e t

/-- The plan of an EJECT task: its volume to the service rack for removal (R75). -/
def Plant.planEject (e : Env) (t : TaskNo) (x : Plant) : Plant :=
  match (x.task? t).bind fun k => x.taskVol k with
  | some v =>
    match v.loc with
    | .outside => x.planFind e t .fetch
    | .unknown => x.planFind e t .locate
    | _ => x.planRemove e t
  | none => x

/-- The plan of a reel without a volume serial: its label is read at a pick, or, once in a gripper, it goes to a FOREIGN
prompt (R74, R77). -/
def Plant.planReel (e : Env) (t : TaskNo) (x : Plant) : Plant :=
  match (x.task? t).bind (·.source) with
  | some (.service n) => (x.adoptSlot t n).slotPrompt e t .foreign n false
  | some (.gripper _) => x.planMove e t .foreign
  | some _ => x.planMove e t .identify
  | none => x

/-! ### Endings (R53) -/

/-- A step of a task's leg is in flight. -/
def Plant.underWay (t : TaskNo) (x : Plant) : Bool :=
  [Acc.A, Acc.B].any fun a => (x.acc a).step.isSome && (x.acc a).leg.any fun l => l.owner = .task t

/-- The drive bound to a task. -/
def Plant.boundDrive (t : TaskNo) (x : Plant) : Option DriveNo :=
  (List.finRange 32).find? fun d => (x.drive d).bound = some t

/-- The drive binding of a task is cleared, and the open mount with it (R119). -/
def Plant.unbindDrive (t : TaskNo) (x : Plant) : Plant :=
  match x.boundDrive t with
  | some d => x.updDrive d (·.unbind)
  | none => x

/-- The volume binding of a task is cleared (R8). -/
def Plant.unbindVol (t : TaskNo) (x : Plant) : Plant :=
  { x with ltu.volumes := x.ltu.volumes.map fun v => if v.bound = some t then { v with bound := none } else v }

/-- A prompt the task owns is withdrawn; a reference to an accessor's prompt is only dropped (R41, R53). -/
def Plant.withdrawOwn (e : Env) (t : TaskNo) (x : Plant) : Plant :=
  match (x.task? t).bind (·.prompt) with
  | some n =>
    let owned := x.pru.table.any (fun p => p.number = n ∧ p.owner = .task t)
      || x.pru.waiting.any (fun r => r.number = n ∧ r.owner = .task t)
    let y := x.updTask t ({ · with prompt := none })
    if owned then y.withdraw e n else y
  | none => x

/-- Occupied slots whose task has ended hold a reel of no live task: a RECOVERY request is made for each, unless an open
prompt names a service slot (R77, R78). -/
def Plant.orphanSlots (t : TaskNo) (x : Plant) : Plant :=
  let y := (List.finRange 8).foldl (fun y n =>
    if (y.service n).state = .occupied ∧ (y.service n).task = some t then
      let z := y.setService n { y.service n with task := none }
      if z.pru.namesSlot (.service n) then z else z.requestRecovery (.service n)
    else y) x
  (List.finRange 4).foldl (fun y h =>
    if (y.handoff h).state = .occupied ∧ (y.handoff h).task = some t then
      (y.setHandoff h { y.handoff h with task := none }).requestRecovery (.handoff h)
    else y) y

/-- What a dismount requester receives when the task ends (R38, R53): the status the ending names, where a DISMOUNT has a code
for it, else DISMOUNTED. (DESIGN CHOICE, log 90.) -/
def dismountStatus (f : Option Final) (d : DriveNo) : Status :=
  match f with
  | some .operatorCancelled => .dismountEnded .operatorCancelled d
  | some .operatorTimeout => .dismountEnded .operatorTimeout d
  | some .libraryRestarted => .dismountEnded .libraryRestarted d
  | _ => .dismounted d

/-- A dismount requester's final status, after which it is no longer held (R38). -/
def Plant.answerRequester (t : TaskNo) (f : Option Final) (x : Plant) : Plant :=
  match x.task? t with
  | some k =>
    match k.requester with
    | some (p, tag) =>
      (x.updTask t ({ · with requester := none })).status p (some tag) .last (dismountStatus f (k.drive.getD 0))
    | none => x
  | none => x

/-- The order's final status at an ending: the pending one, or the one the ending names (R53); where there are both, the
pending one. (DESIGN CHOICE, log 78.) -/
def Plant.answerOrder (t : TaskNo) (f : Option Final) (x : Plant) : Plant :=
  match x.task? t with
  | some k =>
    match k.pending.or f with
    | some g => x.answer t (.ended g k.tags)
    | none => x
  | none => x

/-- The carry of a wrong reel that a task found outlives it (R67), and so does a leg of its own that ends only at the
completion of its step in flight (R90): the task's record is no longer its owner. (DEDUCED, log 23.) -/
def Leg.outlive (t : TaskNo) (l : Leg) : Leg :=
  if l.owner = .found t true ∨ l.owner = .task t then { l with owner := .found t false } else l

/-- Every leg, in the queue or in hand, that outlives a task when it ends. -/
def Plant.outliveCarries (t : TaskNo) (x : Plant) : Plant :=
  { x with mou := { x.mou with queue := x.mou.queue.map (·.outlive t),
                               accA := { x.mou.accA with leg := x.mou.accA.leg.map (·.outlive t) },
                               accB := { x.mou.accB with leg := x.mou.accB.leg.map (·.outlive t) } } }

/-- The ending of a task (R53): legs and reservations go, its prompt is withdrawn, its bindings are cleared, the order
and the requester are answered, and the record is freed. -/
def Plant.endTask (e : Env) (t : TaskNo) (f : Option Final) (x : Plant) : Plant :=
  let y := ((((x.dropLegs e t).releaseCell t).releaseHandoff t).releaseService t).releaseEntries t
  let z := ((y.withdrawOwn e t).unbindVol t).unbindDrive t
  ((((z.answerOrder t f).answerRequester t f).orphanSlots t).outliveCarries t).putTask t none

/-- A resident can be put into no cell: none is reserved for it, its home is not EMPTY, and no cell is free (R59). -/
def Plant.noCell (k : Task) (v : Volume) (x : Plant) : Bool :=
  k.cell.isNone && (v.home.filter (fun c => (x.cell c).occ = .empty)).isNone && x.freeCell.isNone

/-- A task that a pending final status returns: before its demount, or once the RETURN plan has been given (R78, R79). -/
def Task.returns (k : Task) : Bool := k.pending.isSome && (k.state ≠ .demounting || k.returning)

/-- The RETURN plan (R78): a reel out of place goes to storage, a visitor to a service slot. A reel in a service slot that
its plan leaves there ends the task at once (R42), and so does a volume in a cell; one that cannot be placed ends it with its
pending final status, the requester's too (R38). A reel put back on a drive that is not the task's is left to that drive's
RECOVERY task. (DESIGN CHOICE, log 91.) -/
def Plant.planReturn (e : Env) (t : TaskNo) (x : Plant) : Plant :=
  match x.task? t with
  | none => x
  | some k =>
    match x.taskVol k with
    | some v =>
      if x.onOtherDrive t k then x.endTask e t k.pending
      else
      match v.loc with
      | .gripper _ | .handoff _ | .drive _ => if v.cls = .visitor then x.planMove e t .returnSlot else x.planStore e t
      | .service n =>
        if v.cls = .visitor ∨ x.noCell k v then (x.adoptSlot t n).endTask e t none else (x.adoptSlot t n).planStore e t
      | .cell _ => x.endTask e t none
      | .entry _ | .outside | .unknown => x.endTask e t k.pending
    | none => x.endTask e t k.pending

/-- The plan of a task from where its reel stands, by its kind; a pending final status before the demount makes it a
RETURN. A task planned afresh waits for no accessor's recovery any longer. -/
def Plant.planTask (e : Env) (t : TaskNo) (x : Plant) : Plant :=
  let x := x.updTask t ({ · with faulted := none })
  match x.task? t with
  | none => x
  | some k =>
    if k.returns then x.planReturn e t
    else if k.state = .demounting then x.planDemount e t
    else if k.serial = none then x.planReel e t
    else
      match k.kind with
      | .mount | .mountScratch => x.planMount e t
      | .eject => x.planEject e t
      | .enter | .recovery | .refile => x.planSettle e t

/-! ### Serving the waiters (R58, R60) -/

/-- A waiter whose slot is EMPTY goes on with the movement it waited to make; one whose volume has been lost meanwhile
plans anew. -/
def Plant.resumeWaiter (e : Env) (t : TaskNo) (k : Task) (x : Plant) : Plant :=
  let y := x.updTask t ({ · with waiter := none })
  match x.reelAt k, k.work with
  | some .outside, _ | some .unknown, _ => y.planTask e t
  | _, some w => y.planMove e t w
  | _, none => y.planTask e t

/-- Serving the waiters: each EMPTY slot goes to the oldest waiter of its rack. (DESIGN CHOICE, log 61.) -/
def Plant.serveWaiters (e : Env) : Nat → Plant → Plant
  | 0, x => x
  | n + 1, x =>
    match (if x.emptyService.isSome then oldest e.tick (x.waiters .service) else none) with
    | some (t, k) => Plant.serveWaiters e n (x.resumeWaiter e t k)
    | none =>
      match (if x.emptyHandoff.isSome then oldest e.tick (x.waiters .handoff) else none) with
      | some (t, k) => Plant.serveWaiters e n (x.resumeWaiter e t k)
      | none => x

/-- A slot that has become EMPTY goes to the waiters before the plan that gave it up asks for another (R58, R60).
(DESIGN CHOICE, log 61.) -/
def Plant.offerSlots (e : Env) (x : Plant) : Plant := x.serveWaiters e 64

/-- A task planned afresh gives up a handoff slot reserved for its earlier plan (R58), and plans from where its reel
stands. -/
def Plant.planAnew (e : Env) (t : TaskNo) (x : Plant) : Plant :=
  (((x.updTask t ({ · with waiter := none })).releaseHandoff t).offerSlots e).planTask e t

/-! ### Replanning a task whose reel has been found elsewhere -/

/-- The number of the open or backlogged FETCH or LOCATE prompt the task waits on (R63). -/
def Plant.findPrompt (t : TaskNo) (x : Plant) : Option Nat :=
  ((x.task? t).bind (·.prompt)).filter fun n =>
    x.pru.kindOf n = some .fetch ∨ x.pru.kindOf n = some .locate

/-- A volume found while its task waits (R63): the prompt is RESOLVED and the task planned from the new location. -/
def Plant.resolve (e : Env) (t : TaskNo) (fetched : Bool) (x : Plant) : Plant :=
  match x.findPrompt t with
  | some n =>
    let y := (x.withdraw e n).updTask t ({ · with prompt := none, preClaim := none })
    (if fetched then y.tag t .fetched else y).planAnew e t
  | none => x

/-- A task that waits on no prompt and for no cleaning plans afresh from where its reel now is; any other plans when its
wait ends (R68, R207), and a returning one with a step in flight at that step's completion (R41, R42). (DEDUCED,
logs 34 and 64.) -/
def Plant.replan (e : Env) (t : TaskNo) (x : Plant) : Plant :=
  match x.task? t with
  | none => x
  | some k =>
    if (x.findPrompt t).isSome then x.resolve e t false
    else if k.prompt.isNone ∧ (k.state = .moving ∨ k.state = .demounting ∨ (k.state = .waiting ∧ k.wait ≠ some .clean))
    then (if k.returns ∧ x.underWay t then x else (x.supersede e t).planAnew e t)
    else x

/-! ### REFILE tasks (R76) -/

/-- A new task record, before its plan. A task that is no mount has the intent READ. (DESIGN CHOICE, log 86.) -/
def Task.new (kind : TaskKind) (origin : Origin) (now : Tick) : Task where
  kind := kind
  origin := origin
  answered := false
  serial := none
  drive := none
  intent := .read
  account := 0
  state := .admitted
  wait := none
  tags := 0
  handoff := none
  service := none
  cell := none
  prompt := none
  requester := none
  pending := none
  admitted := now
  mountedTick := none
  mountedMinute := none
  work := none
  waiter := none
  source := none
  preClaim := none
  faulted := none
  readSerial := none
  ringKept := false
  holding := none
  returning := false

/-- A record is taken for a new task; how many choices have been made moves on. (DESIGN CHOICE, log 10.) -/
def Plant.newTask (t : TaskNo) (k : Task) (x : Plant) : Plant :=
  { x.putTask t (some k) with tcu.choices := x.tcu.choices + 1 }

/-- The conditions under which a REFILE task is created for a volume (R44, R76). -/
def Plant.refileReady (v : Volume) (x : Plant) : Bool :=
  v.misfiled && (match v.loc with | .cell _ => true | _ => false) && v.bound.isNone
    && (match v.home with | some c => (x.cell c).occ = .empty | none => false)
    && 8 ≤ x.freeRecords.length

/-- A REFILE task is created: the volume bound, its home reserved, its leg queued (R76). -/
def Plant.createRefile (e : Env) (v : Volume) (x : Plant) : Plant :=
  match x.freeRecord, v.home with
  | some t, some c =>
    let k := { Task.new .refile .internal e.tick with serial := some v.serial }
    let y := (x.newTask t k).updVol v.serial ({ · with bound := some t, refilePending := false })
    (y.reserveCell t v.serial c).planMove e t .store
  | _, _ => x

/-- LTU's refile request for a volume that has come to a cell other than its home: the task, or the pending mark (R7,
R76). -/
def Plant.refileRequest (e : Env) (s : Serial) (x : Plant) : Plant :=
  match x.vol? s with
  | some v =>
    if v.misfiled then
      if x.refileReady v then x.createRefile e v else x.updVol s ({ · with refilePending := true })
    else x
  | none => x

/-- A write of a location that may make a resident MISFILED, with its refile request (R6, R7). -/
def Plant.relocate (e : Env) (s : Serial) (l : Location) (x : Plant) : Plant := (x.moveVol s l).refileRequest e s

end Sys2Proof.Machine
end

