-- ==== Sys2Proof/Machine/Close.lean ====
section
/-!
DEFINITION. The close of a mount: the charge, the account, the volume's wear, the drive's footage, the usage record, the
quiet timer and the trigger (R142–R144, R175, R178, R180–R188).
-/
namespace Sys2Proof.Machine

/-! ### The charge (R175, R181) -/

/-- The period in force at a minute, for a table in rising order of start: the last start not above it, else the last
of all (R175). -/
def shiftPeriod (l : List Period) (m : Nat) : Option Period :=
  ((l.filter fun p => p.start ≤ m).getLast?).or l.getLast?

/-- The shift factor of a mount: 16 for an empty table (R175). -/
def shiftFactor (l : List Period) (m : Nat) : Nat := ((shiftPeriod l m).map (·.factor)).getD 16

/-- Stages 1 to 5 of the charge (R181). -/
def exactCharge (r : Rate) (s t f : Nat) : Nat :=
  let granules := (t + r.granule - 1) / r.granule
  let base := r.fee + granules * r.price + f * r.wear / 100
  (base * s + 8) / 16

/-- The largest charge (R181). -/
def maxCharge : Nat := 16777215

/-- Stage 6: the clamp. -/
def charge (r : Rate) (s t f : Nat) : Nat := min maxCharge (exactCharge r s t f)

def clamped (r : Rate) (s t f : Nat) : Bool := maxCharge < exactCharge r s t f

/-- The largest 32-bit total. -/
def maxTotal : Nat := 4294967295

/-! ### What a close changes (R182–R184) -/

/-- The allowance is reached: non-zero and not above the total (R178). -/
def Account.reached (a : Account) : Bool := a.allowance ≠ 0 ∧ a.allowance ≤ a.total

/-- A charge saturates an account's total: the true sum exceeds the largest value (R182). -/
def Account.saturates (c : Nat) (a : Account) : Bool := maxTotal < a.total + c

/-- The account after a close (R182). -/
def Account.closed (c t : Nat) (a : Account) : Account :=
  { a with total := satAdd maxTotal a.total c, mounts := satAdd 65535 a.mounts 1,
           occupancy := satAdd maxTotal a.occupancy t, saturated := a.saturated || a.saturates c }

/-- A limit is reached: non-zero and not above the count (R143). -/
def limitReached (limit count : Nat) : Bool := limit ≠ 0 ∧ limit ≤ count

/-- WORN judged for a volume at a drive after one of its counts has risen (R143), with its RETIRE prompt (R144). -/
def Plant.judgeWorn (e : Env) (s : Serial) (d : DriveNo) (reached : Volume → Bool) (x : Plant) : Plant :=
  match x.vol? s with
  | some v =>
    if reached v ∧ !v.worn then
      (x.updVol s ({ · with worn := true })).ask e .retire { vol := some s, drive := some d } (.drive d)
    else x
  | none => x

/-- The volume after a close (R183 steps 1 to 3). -/
def Plant.wear (e : Env) (s : Serial) (d : DriveNo) (f : Nat) (x : Plant) : Plant :=
  (x.updVol s fun v => { v with mounts := satAdd 65535 v.mounts 1, footage := satAdd maxTotal v.footage f }).judgeWorn e
    s d fun v => limitReached e.set.mountLimit v.mounts

/-- A record is appended, the next sequence number rises, and the quiet timer restarts (R185, R188). -/
def Acu.append (e : Env) (u : Usage) (a : Acu) : Acu :=
  { a with buffer := a.buffer ++ [u], nextSeq := (a.nextSeq + 1) % 65536,
           quietEnd := some (e.tick + ticks e.set.quiet) }

/-- What an UNLOADED report gives a close; all 0 for a restart close (R180). -/
structure Counters where
  footage : Nat
  blocksRead : Nat
  blocksWritten : Nat
deriving DecidableEq, Repr

/-- Occupancy from the mounted tick to now, at most the largest 32-bit value (R180). -/
def occupancyOf (e : Env) (k : Task) : Nat := min maxTotal (elapsed (k.mountedTick.getD e.tick) e.tick)

/-- The path of a task's order. -/
def Origin.path? : Origin → Path
  | .path p _ => p
  | _ => 0

/-- The close of a mount task on a drive (R180–R184), taking the accounts and the buffer with the plant. It replaces an open
mount by a usage record (R45, R186); a drive without an open mount has nothing to close. -/
def closeMount (e : Env) (t : TaskNo) (d : DriveNo) (n : Counters) (a : Acu) (x : Plant) : Acu × Plant :=
  match x.task? t with
  | none => (a, x)
  | some k =>
    if !(x.drive d).mountOpen then (a, x)
    else
      let acct := a.accounts.get k.account.toFin
      let r := e.set.rates.get acct.cls
      let occ := occupancyOf e k
      let m := k.mountedMinute.getD 0
      let s := shiftFactor e.set.shifts m
      let c := charge r s occ n.footage
      let x := if clamped r s occ n.footage then x.tag t .chargeClamped else x
      let a := { a with accounts := vset a.accounts k.account.toFin (acct.closed c occ) }
      let x := if acct.saturates c then (x.tag t .totalSaturated).setFlag e .accountSaturated else x
      let x := match k.serial with
        | some v => x.wear e v d n.footage
        | none => x
      let x := x.updDrive d fun q => { q.addFootage n.footage with mountOpen := false }
      let u : Usage :=
        { seq := a.nextSeq, account := k.account, volume := k.serial.getD 0, drive := d, path := k.origin.path?,
          intent := k.intent, minute := m, occupancy := occ, footage := n.footage, blocksRead := n.blocksRead,
          blocksWritten := n.blocksWritten, factor := s, charge := c, tags := ((x.task? t).map (·.tags)).getD 0 }
      let a := a.append e u
      (a, if a.buffer.length = e.set.trigger then x.setFlag e .acctReady else x)

end Sys2Proof.Machine
end

