-- ==== Sys2Proof/Machine/Audit.lean ====
section
/-!
DEFINITION. The Audit Unit: list ends, passes, triggers, the interval timer, and the comparison of readings with the
tables (Chapter 9). What the Motion Unit does with an audit leg stands in Motion.lean.
-/
namespace Sys2Proof.Machine

/-! ### List contexts (R195) -/

def Plant.list (l : ListNo) (x : Plant) : ListCtx :=
  match l with
  | .one => x.adu.list1
  | .two => x.adu.list2

def Plant.updList (l : ListNo) (f : ListCtx → ListCtx) (x : Plant) : Plant :=
  match l with
  | .one => { x with adu.list1 := f x.adu.list1 }
  | .two => { x with adu.list2 := f x.adu.list2 }

/-- The list's DONE, PAUSED and OVERRUN flags. -/
def ListNo.doneFlag : ListNo → EventFlag
  | .one => .audit1Done
  | .two => .audit2Done

def ListNo.pausedFlag : ListNo → EventFlag
  | .one => .audit1Paused
  | .two => .audit2Paused

def ListNo.overrunFlag : ListNo → EventFlag
  | .one => .audit1Overrun
  | .two => .audit2Overrun

/-- A sweep table entry; past the table there is none. -/
def Env.sweepEntry (e : Env) (n : Nat) : SweepEntry := if h : n < 64 then e.set.sweep.get ⟨n, h⟩ else .fin

/-- The list ends at its next entry: an END entry, past the table, or for list 1 the entry numbered L2 (R194).
(DEDUCED, log 48.) -/
def Env.listEnds (e : Env) (l : ListNo) (next : Nat) : Bool :=
  64 ≤ next || e.sweepEntry next = .fin || (l = .one && next = e.set.l2)

/-! ### The interval timer (R199) -/

/-- The timer runs while either list is in INTERVAL, or in INTERVAL-ONCE and armed. -/
def ListCtx.wantsTimer (c : ListCtx) : Bool := c.mode = .interval || (c.mode = .intervalOnce && c.armed)

def Adu.timed (a : Adu) : Bool := a.list1.wantsTimer || a.list2.wantsTimer

/-- Judging the timer; while the library is STARTING it is held at zero. -/
def Plant.judgeTimer (e : Env) (x : Plant) : Plant :=
  if x.adu.timed ∧ x.mgu.lib ≠ .starting then
    match x.adu.timer with
    | some _ => x
    | none => { x with adu.timer := some (e.tick + ticks e.set.auditInterval) }
  else { x with adu.timer := none }

/-! ### Passes (R200, R201) -/

/-- The end of a list with DONE (R201). -/
def Plant.finishList (e : Env) (l : ListNo) (x : Plant) : Plant :=
  ((x.setFlag e l.doneFlag).updList l ({ · with state := .idle, armed := false })).judgeTimer e

/-- The audit leg formed from an entry (R102, R200). -/
def auditLeg (l : ListNo) (bay first last : Nat) : Leg where
  id := 0
  owner := .audit l
  cls := .audit
  src := .cell (bay * 16 + first)
  dst := none
  onward := none
  capA := reach .A bay
  capB := reach .B bay
  steps := 0
  joined := 0
  picked := false
  work := .identify
  bay := bay
  pos := first
  last := last

/-- A list takes up its next entry: the list ends there, or an audit leg is formed (R200). (DEDUCED, log 49.) -/
def Plant.takeUpEntry (e : Env) (l : ListNo) (x : Plant) : Plant :=
  let n := (x.list l).next
  if e.listEnds l n then x.finishList e l
  else
    match e.sweepEntry n with
    | .fin => x
    | .range bay first last pause =>
      (x.updList l ({ · with state := .running, live := true, pos := some first, pause := pause })).queueLeg e
        (auditLeg l bay first last)

/-- A pass starts (R200); a boundary past the table starts list 2 past the table. (DEDUCED, log 48.) -/
def Plant.startPass (e : Env) (l : ListNo) (x : Plant) : Plant :=
  let first := match l with
    | .one => 0
    | .two => min 64 e.set.l2
  (x.updList l ({ · with counts := Counts.zero, next := first, startPending := false })).takeUpEntry e l

/-- A trigger reaches a list (R198). -/
def Plant.trigger (e : Env) (l : ListNo) (x : Plant) : Plant :=
  let c := x.list l
  match c.state with
  | .idle => if c.live then x.updList l ({ · with startPending := true }) else x.startPass e l
  | .paused => x.takeUpEntry e l
  | .running | .suspended => x.setFlag e l.overrunFlag

/-- The entry of a leg that has read its last position is completed (R201). -/
def Plant.completeEntry (e : Env) (l : ListNo) (x : Plant) : Plant :=
  let y := x.updList l fun c => { c with live := false, pos := none, next := c.next + 1 }
  let c := y.list l
  if e.listEnds l c.next then (if c.pause then y.setFlag e l.pausedFlag else y).finishList e l
  else if c.pause then (y.setFlag e l.pausedFlag).updList l ({ · with state := .paused })
  else y.takeUpEntry e l

/-- MOU's report that a leg of a pass ended by a mode change has ended (R203). -/
def Plant.auditStopped (e : Env) (l : ListNo) (x : Plant) : Plant :=
  let y := x.updList l ({ · with live := false, pos := none })
  if (y.list l).startPending then y.startPass e l else y

/-- An audit leg returns to the queue with its age and its next position, and its list is SUSPENDED (R202). -/
def Plant.suspendLeg (e : Env) (l : ListNo) (g : Leg) (x : Plant) : Plant :=
  (x.updList l ({ · with state := .suspended, pos := some g.pos })).joinQueue e g

/-! ### Comparison (R204–R208) -/

def Plant.bump (l : ListNo) (f : Counts → Counts) (x : Plant) : Plant := x.updList l fun c => { c with counts := f c.counts }

/-- A task leg that waits in the queue has the cell as its source. -/
def Plant.queuedSource (c : CellNo) (x : Plant) : Bool :=
  x.mou.queue.any fun g => (match g.owner with | .task _ => true | _ => false) && g.src = .cell c

/-- A leg taken by an accessor whose PICK has not completed has the cell as its source. -/
def Plant.takenSource (c : CellNo) (x : Plant) : Bool :=
  [Acc.A, Acc.B].any fun a =>
    match (x.acc a).leg with
    | some g => (match g.owner with | .audit _ => false | _ => true) && !g.picked && g.src = .cell c
    | none => false

/-- The reading of a bound volume whose pick is in hand is left to that pick (R204). -/
def Plant.leftToPick (c : CellNo) (r : Reading) (x : Plant) : Bool :=
  match r with
  | .serial w =>
    match x.vol? w with
    | some v =>
      match v.loc with
      | .cell c' => v.bound.isSome && c' ≠ c && x.takenSource c'
      | _ => false
    | none => false
  | _ => false

/-- A position is skipped (R204). -/
def Plant.skips (c : CellNo) (r : Reading) (x : Plant) : Bool :=
  (match (x.cell c).occ with | .reserved _ _ => true | _ => false) || x.queuedSource c || x.takenSource c
    || x.leftToPick c r

/-- The FOREIGN prompt that names a cell is closed RESOLVED (R208). -/
def Plant.resolveForeign (e : Env) (c : CellNo) (x : Plant) : Plant :=
  match x.pru.foreignAt c with
  | some (n, _) => x.withdraw e n
  | none => x

/-- The volume whose location is the cell read becomes UNKNOWN (R205). -/
def Plant.unseat (c : CellNo) (x : Plant) : Plant × Bool :=
  match x.volAt? (.cell c) with
  | some v => (x.moveVol v.serial .unknown, true)
  | none => (x, false)

/-- A reading of a serial that is not in the table, or is taken as one (R208). -/
def Plant.readForeign (e : Env) (a : Acc) (l : ListNo) (c : CellNo) (w : Serial) (x : Plant) : Plant :=
  let y := ((x.unseat c).1.setOcc c .foreign).bump l fun k => { k with foreign := k.foreign + 1 }
  let ask (z : Plant) : Plant := z.ask e .foreign { ser2 := some w, cell := some c } (.acc a)
  match y.pru.foreignAt c with
  | some (n, s) => if s = some w then y else ask (y.withdraw e n)
  | none => ask y

/-- A reading of a serial in the table, located elsewhere or nowhere (R206, R207). -/
def Plant.readHere (e : Env) (l : ListNo) (c : CellNo) (w : Volume) (x : Plant) : Plant :=
  let leg : Bool := match w.loc with
    | .cell c' => w.bound.isSome && x.mou.queue.any fun g => (w.bound.map Owner.task = some g.owner) && g.src = .cell c'
    | _ => false
  let y := ((x.unseat c).1.moveVol w.serial (.cell c)).resolveForeign e c
  let z := if w.home = some c then y else y.bump l fun k => { k with misfiled := k.misfiled + 1 }
  match w.bound with
  | none =>
    match w.cls with
    | .resident => z.refileRequest e w.serial
    | .visitor => z.requestRecovery (.cell w.serial)
  | some t =>
    let z := match w.cls with
      | .resident => z.refileRequest e w.serial
      | .visitor => z
    if (z.findPrompt t).isSome then z.resolve e t false
    else if leg then
      match (z.task? t).bind (·.work) with
      | some m => (((z.dropLegs e t).releaseHandoff t).offerSlots e).planMove e t m
      | none => z
    else z

/-- A reading of EMPTY (R205). -/
def Plant.readEmpty (e : Env) (l : ListNo) (c : CellNo) (x : Plant) : Plant :=
  let (y, held) := x.unseat c
  let z := (if held then y.bump l fun k => { k with missing := k.missing + 1 } else y).setOcc c .empty
  z.resolveForeign e c

/-- A reading of UNREADABLE (R205). -/
def Plant.readUnreadable (e : Env) (l : ListNo) (c : CellNo) (x : Plant) : Plant :=
  (((x.unseat c).1.setOcc c .suspect).bump l fun k => { k with unreadable := k.unreadable + 1 }).resolveForeign e c

/-- The reading of one position (R204–R208): WATCH-SEEN is set before whatever else its judgement sets. (DESIGN CHOICE,
log 84.) -/
def Plant.judgeReading (e : Env) (a : Acc) (l : ListNo) (c : CellNo) (r : Reading) (x : Plant) : Plant :=
  if x.skips c r then x.bump l fun k => { k with skipped := k.skipped + 1 }
  else
    let y := x.bump l fun k => { k with read := k.read + 1 }
    match r with
    | .empty => y.readEmpty e l c
    | .unreadable => y.readUnreadable e l c
    | .serial w =>
      match y.vol? w with
      | none => y.readForeign e a l c w
      | some v =>
        match v.loc with
        | .drive _ | .gripper _ | .handoff _ | .entry _ | .service _ => y.readForeign e a l c w
        | .cell _ | .outside | .unknown =>
          let z := if v.watch then y.setFlag e .watchSeen else y
          if v.loc = .cell c then z else z.readHere e l c v

/-- The readings of a READ, first position first. -/
def Plant.judgeReadings (e : Env) (a : Acc) (l : ListNo) (bay : Nat) : Nat → List Reading → Plant → Plant
  | _, [], x => x
  | p, r :: rs, x => Plant.judgeReadings e a l bay (p + 1) rs (x.judgeReading e a l (bay * 16 + p) r)

end Sys2Proof.Machine
end

