-- ==== Sys2Proof/Machine/Picks.lean ====
section
/-!
DEFINITION. What the Task Controller does with a pick's report: the label check, the match, the wrong reel, the grip
miss, and the reel identified by its reading (R66, R67, R69, R74, R77), and the turning of a task to its return (R42).
-/
namespace Sys2Proof.Machine

/-- A change made for a task, where there is one. -/
def Plant.forTask (f : TaskNo → Plant → Plant) (t : Option TaskNo) (x : Plant) : Plant :=
  match t with
  | some u => f u x
  | none => x

/-- A task's record of a slot goes with the reel that has left the slot (R21, R99). -/
def Plant.forgetSlot (t : Option TaskNo) (l : Location) (x : Plant) : Plant :=
  match l with
  | .service n =>
    x.forTask (fun u y => y.updTask u fun k => { k with service := if k.service = some n then none else k.service }) t
  | .handoff h =>
    x.forTask (fun u y => y.updTask u fun k => { k with handoff := if k.handoff = some h then none else k.handoff }) t
  | _ => x

/-- The place a reel has been picked from, less what the volume's own move has done: a slot becomes EMPTY with its task
cleared, a cell that held a reel of no known volume becomes EMPTY, and a drive is unbound and taken up, for the task the
place is held for, if any (R16, R20, R21, R71, R99, R125). A slot reserved since for a placement stays reserved. -/
def Plant.vacate (e : Env) (t : Option TaskNo) (src : Location) (x : Plant) : Plant :=
  match src with
  | .entry n => x.setEntry n Slot.clear
  | .service n => if (x.service n).state = .reserved then x else (x.setService n Slot.clear).forgetSlot t src
  | .handoff h => if (x.handoff h).state = .reserved then x else (x.setHandoff h Slot.clear).forgetSlot t src
  | .drive d => (x.forTask Plant.unbindDrive t).takeUp e d
  | .cell c =>
    match (x.cell c).occ with
    | .foreign | .suspect => x.putOcc c .empty
    | _ => x
  | .gripper _ | .outside | .unknown => x

/-- The task a place is held for: a slot's task, a drive's binding. -/
def Plant.holderOf (l : Location) (x : Plant) : Option TaskNo :=
  match l with
  | .service n => (x.service n).task
  | .handoff h => (x.handoff h).task
  | .drive d => (x.drive d).bound
  | .cell _ | .entry _ | .gripper _ | .outside | .unknown => none

/-- A volume found elsewhere than its record says takes the place where it is; a slot it leaves is its task's no longer
(R21, R67 step 3, R99). -/
def Plant.moveFound (s : Serial) (l : Location) (x : Plant) : Plant :=
  match x.volLoc s with
  | some src => (x.moveVol s l).forgetSlot (x.holderOf src) src
  | none => x.moveVol s l

/-- The reservations a lost reel's task gives up (R67 step 2, R69). -/
def Plant.releaseAll (t : TaskNo) (x : Plant) : Plant := ((x.releaseCell t).releaseHandoff t).releaseService t

/-- The expected volume was not at the source: it becomes UNKNOWN, or, for an entry slot claimed by a FETCH or LOCATE
answer, returns to where it was before the claim (R67 step 1, R69). -/
def Plant.lostAt (t : TaskNo) (src : Location) (x : Plant) : Plant :=
  match x.task? t with
  | none => x
  | some k =>
    match x.taskVol k with
    | none => x
    | some v =>
      if v.loc = src then
        match src with
        | .entry _ => x.moveVol v.serial (k.preClaim.getD .unknown)
        | _ => x.moveVol v.serial .unknown
      else x

/-- What the task does after the loss (R67 step 6, R69, R78): a REFILE task ends, and a returning task with its pending final
status, which its requester receives too, the reel not being placed (R38); any other waits on
a LOCATE prompt, or on a FETCH prompt for a volume at OUTSIDE. A task whose volume has been found elsewhere waits for
it. (DEDUCED, logs 34 and 36.) -/
def Plant.afterLoss (e : Env) (t : TaskNo) (x : Plant) : Plant :=
  match x.task? t with
  | none => x
  | some k =>
    if k.kind = .refile ∨ k.returns then x.endTask e t k.pending
    else
      match x.taskVol k with
      | some v =>
        match v.loc with
        | .outside => x.planFind e t .fetch
        | .unknown => x.planFind e t .locate
        | _ => x
      | none => x

/-- The task's reel stands on its own drive. -/
def Plant.onDrive (t : TaskNo) (x : Plant) : Bool :=
  match (x.task? t).bind fun k => x.reelAt k with
  | some (.drive d) => (x.drive d).bound = some t
  | _ => false

/-- The task gives up what a return does not need, the slots so freed are offered to the waiters, and its reel is
returned (R42, R64, R65, R70, R79). The binding of a drive that still holds the reel stays until its pick (R71). -/
def Plant.turnBack (e : Env) (t : TaskNo) (x : Plant) : Plant :=
  let y := x.updTask t ({ · with faulted := none, waiter := none, returning := true })
  let z := ((y.withdrawOwn e t).releaseHandoff t).releaseService t
  let z := if z.onDrive t then z else z.unbindDrive t
  (z.offerSlots e).planReturn e t

/-- What a task does when a leg MOU was asked to end has ended at a completion (R41, R42, R67): a cancelled task goes
back; a task whose reel came into this gripper plans from it. (DEDUCED, logs 34 and 39.) -/
def Plant.afterEnding (e : Env) (a : Acc) (t : TaskNo) (x : Plant) : Plant :=
  match x.task? t with
  | none => x
  | some k =>
    if k.returns then x.turnBack e t
    else if x.reelAt k = some (.gripper a) then x.planAnew e t
    else x

/-- The leg that carries a wrong reel away (R67 step 4), for the record of the task whose pick found it. (DEDUCED,
log 23.) -/
def carryLeg (a : Acc) (t : TaskNo) (live : Bool) (dst : Location) : Leg where
  id := 0
  owner := .found t live
  cls := .recovery
  src := .gripper a
  dst := some dst
  onward := none
  capA := a = .A
  capB := a = .B
  steps := 0
  joined := 0
  picked := true
  work := .carry
  bay := 0
  pos := 0
  last := 0

/-- The volume of the table whose serial a label reads. -/
def Plant.labelled (r : Label) (x : Plant) : Option Volume :=
  match r with
  | .serial w => x.vol? w
  | .unreadable => none

/-- The serial a label reads. -/
def labelSerial : Label → Option Serial
  | .serial w => some w
  | .unreadable => none

/-- The gripper by the label read (R88, R108): the serial, when it names a volume in the table, else UNKNOWN REEL; the
serial read, if any, is kept. The volume's location is written by the rule that takes the reading, which may leave it
elsewhere (R74). (DEDUCED, log 69.) -/
def Plant.gripRead (a : Acc) (r : Label) (x : Plant) : Plant :=
  x.updAcc a fun c =>
    { c with gripper := match x.labelled r with | some v => .known v.serial | none => .unknownReel, read := labelSerial r }

/-- The found reel comes to the gripper: a volume of the table takes the gripper as its location, and a task bound to it
loses its legs, unless it is the picking task (R67 step 3). -/
def Plant.takeFound (e : Env) (a : Acc) (t : Option TaskNo) (r : Label) (x : Plant) : Plant :=
  match x.labelled r with
  | none => x.gripRead a r
  | some w =>
    let y := match w.bound with
      | some u => if some u = t then x else x.dropLegs e u
      | none => x
    y.moveFound w.serial (.gripper a)

/-- The source reserved for a put-back (R67 step 4); a source drive is held for the reel (R125). -/
def Plant.reserveSource (t : TaskNo) (src : Location) (w : Option Serial) (x : Plant) : Plant :=
  match src with
  | .cell c => x.setOcc c (.reserved w t)
  | .handoff h => x.setHandoff h (Slot.reserve t)
  | .drive d =>
    x.updDrive d fun r => ({ r with volume := none, rethreadDone := false, unloadSeen := true } : Drive).setEff .heldReel
  | _ => x

/-- A place may take back the reel it gave: a cell or a handoff slot that is EMPTY, and a drive. -/
def Plant.takesBack (src : Location) (x : Plant) : Bool :=
  match src with
  | .cell c => (x.cell c).occ = .empty
  | .handoff h => (x.handoff h).state = .empty
  | .drive _ => true
  | .service _ | .entry _ | .gripper _ | .outside | .unknown => false

/-- The source of a WRONG-REEL is left (R67 step 1); a drive is unbound, and taken up once the reel's destination is chosen
(R125). -/
def Plant.leaveSource (e : Env) (t : TaskNo) (src : Location) (x : Plant) : Plant :=
  match src with
  | .drive _ => x.unbindDrive t
  | _ => x.vacate e (some t) src

/-- The reel found by a WRONG-REEL (R67 steps 3 to 5): it comes to the gripper, is carried to a service slot or back to its
source, and the accessor's prompt is asked for. A source that has been given away since does not take it back: the reel
stays in the gripper, with a RECOVERY request. At a drive due for cleaning the CLEAN prompt is asked for first. (DEDUCED,
log 34; DESIGN CHOICE, log 81.) -/
def Plant.carryOff (e : Env) (a : Acc) (t : TaskNo) (src : Location) (r : Label) (x : Plant) : Plant :=
  let expected := (x.task? t).bind (·.serial)
  let x := x.takeFound e a (some t) r
  let x := match x.emptyService with
    | some n =>
      let y := match src with
        | .drive d => x.takeUp e d
        | _ => x
      (y.setService n (Slot.reserve t)).queueLeg e (carryLeg a t true (.service n))
    | none =>
      if x.takesBack src then
        (x.reserveSource t src ((x.labelled r).map fun v : Volume => v.serial)).queueLeg e (carryLeg a t true src)
      else x.requestRecovery (.gripper a)
  let place : Params := match src with
    | .cell c => { cell := some c }
    | .drive d => { drive := some d }
    | l => { slot := some l }
  x.ask e .wrongReel { place with vol := expected, ser2 := (labelSerial r), acc := some a } (.acc a)

/-- A WRONG-REEL outcome (R67); a drive due for cleaning asks for its CLEAN prompt before the others (R125). (DESIGN CHOICE,
log 81.) -/
def Plant.wrongReel (e : Env) (a : Acc) (t : TaskNo) (src : Location) (r : Label) (x : Plant) : Plant :=
  let x := (x.lostAt t src).leaveSource e t src
  let x := ((x.tag t .wrongReel).endLeg e a).releaseAll t
  let x := { x with mou.queue := x.mou.queue.filter (fun l => l.owner ≠ Owner.task t) }
  (x.carryOff e a t src r).afterLoss e t

/-- A WRONG-REEL outcome of a leg whose task has been planned anew since: the reel is carried off as ever, and the new plan
stands (R67 step 3, R68). (DEDUCED, log 34.) -/
def Plant.wrongReelLate (e : Env) (a : Acc) (t : TaskNo) (src : Location) (r : Label) (x : Plant) : Plant :=
  (((x.leaveSource e t src).tag t .wrongReel).endLeg e a).carryOff e a t src r

/-- A match (R66): the volume is in the gripper and the source is left; a service slot reserved against a wrong reel is
released unless the leg ends there (R62). -/
def Plant.pickMatch (e : Env) (a : Acc) (t : TaskNo) (l : Leg) (s : Serial) (x : Plant) : Plant :=
  let y := (x.moveFound s (.gripper a)).vacate e (some t) l.src
  let y := y.updTask t ({ · with preClaim := none })
  match l.src with
  | .entry _ =>
    match l.dst with
    | some (.service _) => y
    | _ => y.releaseService t
  | _ => y

/-- The plan of a reel just identified, its volume bound by the task: a resident gives its service slot up, which goes to the
oldest waiter, before the destination of R59 is chosen; a visitor keeps it (R60, R74, R77). -/
def Plant.planIdentified (e : Env) (t : TaskNo) (c : VolClass) (x : Plant) : Plant :=
  match c with
  | .resident => ((x.releaseService t).offerSlots e).planSettle e t
  | .visitor => x.planSettle e t

/-- The reel of an ENTER task, identified by its reading (R74). -/
def Plant.identifyEnter (e : Env) (a : Acc) (t : TaskNo) (r : Label) (x : Plant) : Plant :=
  let unknownReel := (x.updTask t ({ · with readSerial := (labelSerial r) })).planReel e t
  match x.labelled r with
  | none => unknownReel
  | some v =>
    match v.loc with
    | .outside | .unknown =>
      let y := x.moveVol v.serial (.gripper a)
      match v.bound with
      | some u =>
        if (x.findPrompt u).isSome then (y.resolve e u true).endTask e t none
        else y.planMove e t (.handover u)
      | none =>
        let z := (y.updVol v.serial ({ · with bound := some t })).updTask t ({ · with serial := some v.serial })
        z.planIdentified e t v.cls
    | _ => unknownReel

/-- The reel of a RECOVERY task in a gripper, identified by its reading (R77). (DEDUCED, log 42.) -/
def Plant.identifyRecovery (e : Env) (a : Acc) (t : TaskNo) (r : Label) (x : Plant) : Plant :=
  match x.labelled r with
  | none => (x.updTask t ({ · with readSerial := (labelSerial r) })).planReel e t
  | some v =>
    match v.bound with
    | some u => ((x.dropLegs e u).moveFound v.serial (.gripper a)).planMove e t (.handover u)
    | none =>
      let y := x.moveFound v.serial (.gripper a)
      let z := (y.updVol v.serial ({ · with bound := some t })).updTask t ({ · with serial := some v.serial })
      z.planIdentified e t v.cls

/-- A reel without an expected serial stands in the gripper and its label has been read (R66). -/
def Plant.identified (e : Env) (a : Acc) (t : TaskNo) (r : Label) (x : Plant) : Plant :=
  let y := (x.gripRead a r).updTask t ({ · with source := some (.gripper a) })
  match x.task? t with
  | some k => if k.kind = .enter then y.identifyEnter e a t r else y.identifyRecovery e a t r
  | none => y

/-- The place a reel without an expected serial has been picked from: a volume believed there and not read there becomes
UNKNOWN, and the place is left. (DEDUCED, log 43.) -/
def Plant.leaveUnread (e : Env) (t : Option TaskNo) (src : Location) (r : Option Label) (x : Plant) : Plant :=
  let y := match x.volAt? src with
    | some b => if r = some (Label.serial b.serial) then x else x.moveVol b.serial .unknown
    | none => x
  y.vacate e t src

/-- The leg in hand takes the destination TCU has planned from the gripper (R56, R87); where TCU's plan has no leg yet,
the leg ends with the reel in the gripper. (DEDUCED, log 41.) -/
def Plant.supply (e : Env) (a : Acc) (t : TaskNo) (x : Plant) : Plant :=
  match (x.acc a).leg with
  | none => x
  | some l =>
    if l.owner ≠ .task t then x
    else
      match x.mou.queue.find? (fun g => g.owner = .task t ∧ g.src = .gripper a) with
      | some g =>
        ({ x with mou.queue := x.mou.queue.filter (fun h => h.id ≠ g.id) } : Plant).updAcc a fun c =>
          { c with leg := some { l with dst := g.dst, onward := g.onward, work := g.work, picked := true } }
      | none => x.endLeg e a

/-- The leg in hand has its reel in the gripper. -/
def Plant.legPicked (a : Acc) (x : Plant) : Plant :=
  x.updAcc a fun c => { c with leg := c.leg.map fun l => { l with picked := true, steps := l.steps + 1 } }

/-- A reel picked there has come through the entry rack (R63). -/
def Location.isEntry : Location → Bool
  | .entry _ => true
  | _ => false

/-- The completion of a PICK whose task has ended meanwhile: the reel has left its place all the same, a source drive being
taken up (R88, R99, R125), and a RECOVERY task is requested for it in the gripper. (DEDUCED, log 34.) -/
def Plant.pickOutlived (e : Env) (a : Acc) (src : Location) (r : Label) (x : Plant) : Plant :=
  ((((x.leaveUnread e (x.holderOf src) src (some r)).takeFound e a none r).endLeg e a)).requestRecovery (.gripper a)

/-- The completion of a PICK of a leg whose task has been planned anew since: a label that is the task's is its reel, from
which it plans again, its LOCATE or FETCH prompt RESOLVED (R63); any other is a WRONG-REEL. (DEDUCED, log 34.) -/
def Plant.pickSuperseded (e : Env) (a : Acc) (t : TaskNo) (l : Leg) (r : Label) (x : Plant) : Plant :=
  match (x.task? t).bind (·.serial) with
  | some s =>
    if r = .serial s then
      let y := ((x.supersede e t).pickMatch e a t l s).endLeg e a
      if (y.findPrompt t).isSome then y.resolve e t (x.acc a).viaEntry else y.planAnew e t
    else x.wrongReelLate e a t l.src r
  | none => x.pickOutlived e a l.src r

/-- The completion of a PICK with a label (R88, R66): the step is over and the label is judged. -/
def Plant.pickDone (e : Env) (a : Acc) (r : Label) (x : Plant) : Plant :=
  let y := x.updAcc a fun c => { c with step := none, viaEntry := c.leg.any fun l => l.src.isEntry }
  match (x.acc a).leg with
  | none => (y.gripRead a r).goIdle e a
  | some l =>
    match l.owner with
    | .task t =>
      match y.task? t with
      | none => y.pickOutlived e a l.src r
      | some k =>
        match k.serial with
        | some s =>
          if r = .serial s then
            let z := (y.legPicked a).pickMatch e a t l s
            if (x.acc a).ending then (z.endLeg e a).afterEnding e a t else z
          else y.wrongReel e a t l.src r
        | none =>
          ((((y.legPicked a).leaveUnread e (some t) l.src (some r)).offerSlots e).identified e a t r).supply e a t
    | .found t true => y.pickSuperseded e a t l r
    | .found _ false => y.pickOutlived e a l.src r
    | .audit _ => y.endLeg e a

/-- A PICK that closed on nothing (R69; R66 where no serial is expected). At a drive due for cleaning, the CLEAN prompt is
asked for before the LOCATE prompt. (DESIGN CHOICE, log 81.) -/
def Plant.gripMissDone (e : Env) (a : Acc) (x : Plant) : Plant :=
  let y := x.updAcc a ({ · with step := none, gripper := .empty, read := none, viaEntry := false })
  match (x.acc a).leg with
  | none => y.goIdle e a
  | some l =>
    match l.owner with
    | .task t =>
      match (y.task? t).bind (·.serial) with
      | some _ => ((((y.lostAt t l.src).vacate e (some t) l.src).endLeg e a).releaseAll t).afterLoss e t
      | none => (((y.leaveUnread e (some t) l.src none).endLeg e a).releaseAll t).endTask e t none
    | .found _ _ => (y.leaveUnread e (y.holderOf l.src) l.src none).endLeg e a
    | .audit _ => y.endLeg e a

end Sys2Proof.Machine
end

