-- ==== Sys2Proof/Machine/Placements.lean ====
section
/-!
DEFINITION. What the Task Controller does with a placement's report: the advance of the plan, the found reel settled,
the blocked placement, and the mount given up at its drive (R43, R65, R68, R70, R73, R78, R123).
-/
namespace Sys2Proof.Machine

/-- A mount is given up at its drive (R43, R123): the open mount ends without a close; the drive is sent UNLOAD, or,
its reel unloaded already, the task passes into DEMOUNTING at once. -/
def Plant.abandonMount (e : Env) (t : TaskNo) (x : Plant) : Plant :=
  match x.boundDrive t with
  | none => x
  | some d =>
    let y := x.updDrive d ({ · with mountOpen := false })
    if (y.drive d).unloadSeen then
      ((y.updDrive d (·.setEff .unloaded)).updTask t
        ({ · with state := .demounting, prompt := none, wait := none })).planDemount e t
    else
      ((y.updDrive d (·.setEff .unloading)).driveCommand d .unload).updTask t
        ({ · with state := .unloading, prompt := none, wait := none })

/-- A CANCEL taken with the reel at its drive (R43). -/
def Plant.cancelAtDrive (e : Env) (t : TaskNo) (x : Plant) : Plant :=
  ((x.updTask t ({ · with pending := some .cancelled })).withdrawOwn e t).abandonMount e t

/-- The PLACE onto the task's drive (R65, R120): THREADING; a CANCEL taken during the leg acts at once.
(DEDUCED, log 39.) -/
def Plant.placedOnDrive (e : Env) (t : TaskNo) (d : DriveNo) (x : Plant) : Plant :=
  let s := (x.task? t).bind (·.serial)
  let y := (x.updDrive d (·.placed s)).updTask t
    ({ · with state := .threading, wait := none, prompt := none, work := none })
  if ((y.task? t).bind (·.pending)).isSome then y.cancelAtDrive e t else y

/-- The placement for a REMOVE prompt (R73): the requester, and an order whose final status waits, are answered.
(DEDUCED, log 37.) -/
def Plant.placedForRemoval (e : Env) (t : TaskNo) (n : Fin 8) (x : Plant) : Plant :=
  ((x.answerOrder t none).answerRequester t none).slotPrompt e t .remove n false

/-- The found reel of a task bound to it: a FETCH or LOCATE wait is RESOLVED, FETCHED added if the reel came through the
entry rack; any other plan is made afresh (R63, R68). -/
def Plant.foundFor (e : Env) (t : TaskNo) (via : Bool) (x : Plant) : Plant :=
  if (x.findPrompt t).isSome then x.resolve e t via else x.replan e t

/-- A reel handed to the task its volume is bound to, in a service slot (R68, R74, R77); with no such task the slot
awaits recovery. (DEDUCED, logs 42 and 64.) -/
def Plant.handTo (e : Env) (n : Fin 8) (s : Serial) (fetched : Bool) (x : Plant) : Plant :=
  match (x.vol? s).bind (·.bound) with
  | some u =>
    let y := x.setService n { x.service n with task := some u }
    y.foundFor e u fetched
  | none => (x.setService n { x.service n with task := none }).requestRecovery (.service n)

/-- The leg that carried a wrong reel away has placed it (R68): `g` is the volume it was, none for a reel of no known
volume, and `via` says whether it came through the entry rack (R63). (DEDUCED, log 45.) -/
def Plant.carried (e : Env) (via : Bool) (g : Option Serial) (dst : Location) (x : Plant) : Plant :=
  match dst with
  | .service n =>
    match g with
    | some s => x.handTo e n s via
    | none => (x.setService n (Slot.hold .unknown none)).requestRecovery (.service n)
  | .cell _ =>
    match g with
    | some s =>
      let y := x.refileRequest e s
      match (x.vol? s).bind (·.bound) with
      | some u => y.foundFor e u via
      | none => y
    | none => x
  | .handoff h => (x.setHandoff h { x.handoff h with task := none }).requestRecovery (.handoff h)
  | .drive d => (x.updDrive d ({ · with volume := g })).requestRecovery (.drive d)
  | _ => x

/-- TCU's advance at the placement of a task's leg (R56 note 2); `via` says whether the reel came through the entry
rack (R63). -/
def Plant.advance (e : Env) (t : TaskNo) (l : Leg) (via : Bool) (dst : Location) (x : Plant) : Plant :=
  match x.task? t with
  | none => x
  | some k =>
    match dst, l.work with
    | .drive d, .toDrive => x.placedOnDrive e t d
    | .handoff _, w =>
      if k.returns ∧ (w = .toDrive ∨ w = .ringStop) then x.turnBack e t
      else x.planMove e t w
    | .service n, .ringStop => if k.pending.isSome then x.turnBack e t else x.ringPrompt e t n
    | .service n, .ringPull => x.slotPrompt e t .ringPull n false
    | .service n, .remove => x.placedForRemoval e t n
    | .service n, .foreign => x.slotPrompt e t .foreign n false
    | .service n, .handover _ =>
      match (x.service n).content with
      | some (.known s) =>
        if k.kind = .enter then
          match (x.vol? s).bind (·.bound) with
          | some u =>
            let y := x.setService n { x.service n with task := some u }
            (if (y.findPrompt u).isSome then y.resolve e u true else y).endTask e t none
          | none => x.endTask e t none
        else (x.handTo e n s via).endTask e t none
      | _ => x.endTask e t none
    | _, _ => x.endTask e t none

/-- A reel of no known volume comes to its destination (R16, R89, R99). -/
def Plant.placeUnknown (dst : Location) (x : Plant) : Plant :=
  match dst with
  | .cell c => x.setOcc c .foreign
  | .entry n => x.setEntry n (Slot.hold .unknown (x.entry n).task)
  | .service n => x.setService n (Slot.hold .unknown (x.service n).task)
  | .handoff h => x.setHandoff h (Slot.hold .unknown (x.handoff h).task)
  | _ => x

/-- The volume that is in a gripper: the one it shows, where the volume's location is that gripper (R81 note 2). -/
def Plant.inGrip (a : Acc) (x : Plant) : Option Serial :=
  match (x.acc a).gripper with
  | .known s => if x.volLoc s = some (Location.gripper a) then some s else none
  | _ => none

/-- What the gripper held comes to the destination, and the gripper is EMPTY (R89). A reel whose serial names a volume that
is elsewhere is placed as UNKNOWN REEL, the volume unchanged (R74). (DEDUCED, log 69.) -/
def Plant.setDown (a : Acc) (dst : Location) (x : Plant) : Plant :=
  let y := match (x.acc a).gripper with
    | .known _ | .unknownReel =>
      match x.inGrip a with
      | some s => x.moveVol s dst
      | none => x.placeUnknown dst
    | .empty | .notKnown => x
  y.updAcc a ({ · with gripper := .empty, read := none, viaEntry := false })

/-- The completion of a PLACE (R89): the reel is set down, the leg ends, and its owner advances. -/
def Plant.placeDone (e : Env) (a : Acc) (x : Plant) : Plant :=
  let g := x.inGrip a
  let via := (x.acc a).viaEntry
  let y := x.updAcc a ({ · with step := none })
  match (x.acc a).leg with
  | none => y.goIdle e a
  | some l =>
    match l.dst with
    | none => y.endLeg e a
    | some dst =>
      let z := (y.setDown a dst).endLeg e a
      match l.owner with
      | .task t =>
        let z := match g, dst with
          | some s, .cell _ => z.refileRequest e s
          | _, _ => z
        z.advance e t l via dst
      | .found _ _ => z.carried e via g dst
      | .audit _ => z

/-! ### Blocked placements (R70) -/

/-- A handoff slot the task can no longer use; its reservation field goes with it. -/
def Plant.blockedSlot (t : TaskNo) (dst : Location) (x : Plant) : Plant :=
  match dst with
  | .service n =>
    ((x.setService n (Slot.hold .unknown none)).updTask t ({ · with service := none })).requestRecovery (.service n)
  | .handoff h =>
    ((x.setHandoff h (Slot.hold .unknown none)).updTask t ({ · with handoff := none })).requestRecovery (.handoff h)
  | .cell c => (x.setOcc c .suspect).updTask t ({ · with cell := none })
  | _ => x

/-- A task's blocked placement is planned anew from the gripper; a blocked drive gives the mount up (R70). A blocked cell is
replaced by the free-cell choice (R16, R70). (DEDUCED, logs 33 and 70.) -/
def Plant.blockedTask (e : Env) (t : TaskNo) (l : Leg) (dst : Location) (x : Plant) : Plant :=
  match x.task? t with
  | none => x
  | some k =>
    match dst with
    | .drive d =>
      let y := (x.updTask t ({ · with pending := k.pending.or (some .mechanismFailed) })).unbindDrive t
      (y.updDrive d (·.blocked)).turnBack e t
    | .cell _ =>
      match k.serial with
      | some s => (x.blockedSlot t dst).planFreeCell e t s
      | none => x.blockedSlot t dst
    | _ =>
      let y := x.blockedSlot t dst
      if k.returns ∧ (l.work = .toDrive ∨ l.work = .ringStop) then y.turnBack e t
      else y.planMove e t l.work

/-- The cell a blocked carry goes to next: the free-cell choice (R16, R70, R109); none for a visitor, which is placed in no
cell (R59). (DEDUCED, log 17.) -/
def Plant.carryCell (g : Option Serial) (x : Plant) : Option CellNo :=
  match g.bind fun s => x.vol? s with
  | some v =>
    match v.cls with
    | .visitor => none
    | .resident => x.freeCell
  | none => x.freeCell

/-- A carry to a place reserved for it. -/
def Plant.carryTo (e : Env) (a : Acc) (t : TaskNo) (live : Bool) (dst : Location) (x : Plant) : Plant :=
  x.queueLeg e (carryLeg a t live dst)

/-- A carry to another service slot; with none EMPTY the reel stays in the gripper, for which a RECOVERY task is
requested. (DESIGN CHOICE, log 17.) -/
def Plant.carryService (e : Env) (a : Acc) (t : TaskNo) (live : Bool) (x : Plant) : Plant :=
  match x.emptyService with
  | some n => (x.setService n (Slot.reserve t)).carryTo e a t live (.service n)
  | none => x.requestRecovery (.gripper a)

/-- A carry to another handoff slot, which a RECOVERY task will empty; with none EMPTY, to the service rack.
(DESIGN CHOICE, log 17.) -/
def Plant.carryHandoff (e : Env) (a : Acc) (t : TaskNo) (live : Bool) (x : Plant) : Plant :=
  match x.emptyHandoff with
  | some h => (x.setHandoff h (Slot.reserve t)).carryTo e a t live (.handoff h)
  | none => x.carryService e a t live

/-- A carry blocked at the cell it was put back in goes to another cell (R70, R109), through a handoff slot where the cell
lies beyond the accessor's reach, and to the service rack where there is neither. (DEDUCED and DESIGN CHOICE, log 17.) -/
def Plant.carryHome (e : Env) (a : Acc) (t : TaskNo) (live : Bool) (x : Plant) : Plant :=
  let g := x.inGrip a
  match x.carryCell g with
  | none => x.carryService e a t live
  | some c =>
    if (Location.cell c).within a then (x.setOcc c (.reserved g t)).carryTo e a t live (.cell c)
    else x.carryHandoff e a t live

/-- A blocked carry of a wrong reel (R70): what stands in its way is marked, and the placement is planned anew from the
gripper. A put-back blocked on its source drive faults the drive, and the reel goes to the service rack. (DESIGN CHOICE,
log 17.) -/
def Plant.blockedCarry (e : Env) (a : Acc) (t : TaskNo) (live : Bool) (dst : Location) (x : Plant) : Plant :=
  match dst with
  | .cell c => (x.setOcc c .suspect).carryHome e a t live
  | .service n => ((x.setService n (Slot.hold .unknown none)).requestRecovery (.service n)).carryService e a t live
  | .handoff h => ((x.setHandoff h (Slot.hold .unknown none)).requestRecovery (.handoff h)).carryHandoff e a t live
  | .drive d => (x.updDrive d (·.blocked)).carryService e a t live
  | _ => x.carryService e a t live

/-- A PLACE-BLOCKED completion (R70, R89): the gripper keeps its reel and the leg ends. -/
def Plant.blockedDone (e : Env) (a : Acc) (x : Plant) : Plant :=
  let y := (x.updAcc a ({ · with step := none })).endLeg e a
  match (x.acc a).leg with
  | none => y
  | some l =>
    match l.dst, l.owner with
    | some dst, .task t => y.blockedTask e t l dst
    | some dst, .found t live => y.blockedCarry e a t live dst
    | _, _ => y

end Sys2Proof.Machine
end

