-- ==== Sys2Proof/Machine/Motion.lean ====
section
/-!
DEFINITION. The Motion Unit: which accessor takes which leg, when each step is sent, the zone, errands, hold and
recovery, and the settling of waiters at the end of an action (Chapter 4; R58, R60, R61).
-/
namespace Sys2Proof.Machine

/-! ### Taking legs (R93) -/

/-- A holder yields when its expired mark is set and the other accessor's claim waits (R97). -/
def Plant.yielding (a : Acc) (x : Plant) : Bool :=
  x.mou.holder = some a && x.mou.expired && x.mou.claimant = some a.other && (x.acc a).state.working

/-- A place lies outside the shared zone, for a yielding holder (R93); a destination not yet decided does not.
(DEDUCED, log 44.) -/
def outsideZone (grip : Acc → Option Nat) : Option Location → Bool
  | some l =>
    match l.bay grip with
    | some b => !inZone b
    | none => false
  | none => false

/-- An accessor may take a leg (R93). -/
def Plant.mayTake (a : Acc) (l : Leg) (x : Plant) : Bool :=
  let grip := fun b => (x.acc b).bay
  l.capableFor a && ((x.acc a).gripper = .empty || l.src = .gripper a)
    && (!x.yielding a
      || (match l.owner with
          | .audit _ => !inZone l.bay
          | _ => outsideZone grip (some l.src) && outsideZone grip l.dst))

/-- The first leg in queue order that the accessor may take. -/
def Plant.takeable (a : Acc) (x : Plant) : Option Leg := x.mou.queue.find? fun l => x.mayTake a l

/-- A leg of a class above AUDIT that the accessor may take waits (R103). -/
def Plant.higherWaits (a : Acc) (x : Plant) : Bool := x.mou.queue.any fun l => l.cls ≠ .audit && x.mayTake a l

/-- A leg is taken (R93); a suspended audit leg's list returns to RUNNING (R202). -/
def Plant.take (a : Acc) (l : Leg) (x : Plant) : Plant :=
  let y := ({ x with mou.queue := x.mou.queue.filter (fun g => g.id ≠ l.id) } : Plant).updAcc a
    ({ · with state := .stepping, leg := some l, ending := false })
  match l.owner with
  | .audit n => y.updList n fun c => if c.state = .suspended then { c with state := .running } else c
  | _ => y

/-! ### The write gate (R65) -/

inductive Gate where
  | consent | fenced | worn | ringless
deriving DecidableEq, Repr

/-- TCU's judgement before a PLACE onto a drive. -/
def Plant.writeGate (e : Env) (t : TaskNo) (x : Plant) : Gate :=
  match x.task? t with
  | none => .consent
  | some k =>
    match k.intent with
    | .read => .consent
    | .write =>
      match x.taskVol k with
      | none => .consent
      | some v =>
        if e.fenced v.serial then .fenced
        else if v.worn then .worn
        else if v.ring = .ringless then .ringless
        else .consent

/-- The leg ends with the reel in the gripper, and the task is returned with the status, or goes to its ring stop. -/
def Plant.gateRefused (e : Env) (a : Acc) (t : TaskNo) (g : Gate) (x : Plant) : Plant :=
  let y := x.endLeg e a
  match g with
  | .consent => y
  | .fenced => (y.updTask t ({ · with pending := some .fenced })).turnBack e t
  | .worn => (y.updTask t ({ · with pending := some .worn })).turnBack e t
  | .ringless => y.planMount e t

/-! ### Sending steps (R83, R87, R94) -/

/-- A TRAVEL is sent, or the zone is claimed for it (R94): none when its claim already waits. -/
def Plant.travel (e : Env) (a : Acc) (b : Nat) (x : Plant) : Option Plant :=
  if inZone b ∧ x.mou.holder ≠ some a then
    match x.mou.holder with
    | none => some ((x.grantZone e a).sendStep e a (.travel b))
    | some _ =>
      if x.mou.claimant = some a then none else some { x with mou.claimant := some a }
  else some (x.sendStep e a (.travel b))

/-- The next step of an audit leg (R102, R103). -/
def Plant.auditStep (e : Env) (a : Acc) (l : Leg) (x : Plant) : Option Plant :=
  if (x.acc a).bay = some l.bay then
    some (x.sendStep e a (.read l.bay l.pos (if x.higherWaits a then l.pos else l.last)))
  else x.travel e a l.bay

/-- The PLACE at a leg's destination, through the write gate where it is the task's drive. -/
def Plant.placeStep (e : Env) (a : Acc) (l : Leg) (b : Nat) (dst : Location) (x : Plant) : Plant :=
  match dst, l.owner with
  | .drive _, .task t =>
    let g := x.writeGate e t
    if g = .consent then x.sendStep e a (.place b dst.pos) else x.gateRefused e a t g
  | _, _ => x.sendStep e a (.place b dst.pos)

/-- The next step of the leg in hand (R87): none while its TRAVEL waits for the grant. -/
def Plant.legStep (e : Env) (a : Acc) (l : Leg) (x : Plant) : Option Plant :=
  let grip := fun g => (x.acc g).bay
  match l.owner with
  | .audit _ => x.auditStep e a l
  | _ =>
    if l.picked then
      match l.dst with
      | none => some (x.endLeg e a)
      | some d =>
        match d.bay grip with
        | none => some (x.endLeg e a)
        | some b => if (x.acc a).bay = some b then some (x.placeStep e a l b d) else x.travel e a b
    else
      match l.src.bay grip with
      | none => some (x.endLeg e a)
      | some b => if (x.acc a).bay = some b then some (x.sendStep e a (.pick b l.src.pos)) else x.travel e a b

/-- An errand starts (R98): a RETREAT from the zone, else a PARK; none when neither applies. -/
def Plant.errand (e : Env) (a : Acc) (x : Plant) : Option Plant :=
  let go (r : Errand) (b : Nat) : Plant :=
    (x.updAcc a ({ · with state := .stepping, errand := some r })).sendStep e a (.travel b)
  match (x.acc a).bay with
  | none => none
  | some b =>
    if x.mou.holder = some a then (if inZone b then some (go .retreat (retreatBay a)) else none)
    else if inZone b ∨ b = parkBay a then none
    else some (go .park (parkBay a))

/-- RECOVER is sent, or kept unsent under hold (R101, R107): mode STAY for the holder of the grant, CLEAR for the other. -/
def Plant.recover (e : Env) (a : Acc) (x : Plant) : Plant :=
  let y := x.updAcc a ({ · with state := .recovering })
  if e.held then y.updAcc a ({ · with recoverDue := true })
  else (y.updAcc a ({ · with recoverDue := false })).sendStep e a
    (.recover (!(x.mou.holder = some a)) (retreatBay a))

/-! ### ZONE waits (R61) -/

/-- A task's leg has left the queue's wait: an accessor capable of it is IDLE or has been given work since (R61). -/
def Plant.reachable (l : Leg) (x : Plant) : Bool :=
  let up (a : Acc) : Bool := l.capableFor a && ((x.acc a).state = .idle || (x.acc a).state = .stepping)
  up .A || up .B

/-- Tasks whose queued leg has a capable accessor again go back to MOVING; those that have lost theirs wait (R61). -/
def Plant.judgeZoneWaits (x : Plant) : Plant :=
  x.mou.queue.foldl (fun y l =>
    match l.owner with
    | .task t =>
      match y.task? t with
      | some k =>
        if k.state = .waiting ∧ k.wait = some .zone then
          (if k.faulted.isNone ∧ y.reachable l then y.enterMoving t else y)
        else if k.state = .moving ∧ y.legStranded l then y.enterWaiting t .zone
        else y
      | none => y
    | _ => y) x

/-! ### What an accessor does next -/

/-- The next thing an accessor with no step in flight does, if it does anything. A yielding holder outside the zone gives
the grant up first; a HELD accessor that goes to IDLE at the end of a hold ends the ZONE waits of the legs it can do. An
IDLE accessor takes a leg it may take before an errand is judged. (DEDUCED, log 71; DESIGN CHOICE, log 72.) -/
def Plant.act (e : Env) (a : Acc) (x : Plant) : Option Plant :=
  let c := x.acc a
  if c.step.isSome then none
  else if x.yielding a && (match c.bay with | some b => !inZone b | none => false) then some (x.releaseZone e)
  else
    match c.state with
    | .recovering => if c.recoverDue ∧ !e.held then some (x.recover e a) else none
    | .held =>
      if e.held then none
      else if c.leg.isSome ∨ c.errand.isSome then some (x.updAcc a ({ · with state := .stepping }))
      else some (x.goIdle e a).judgeZoneWaits
    | .stepping =>
      if e.held then some (x.updAcc a ({ · with state := .held }))
      else
        match c.leg with
        | none => some (x.goIdle e a)
        | some l => if c.ending then some (x.endLeg e a) else x.legStep e a l
    | .idle =>
      if e.held then some (x.updAcc a ({ · with state := .held }))
      else
        match x.takeable a with
        | some l => some (x.take a l)
        | none => x.errand e a
    | .unknown | .faulted => none

/-- The accessor that acts first: the one that entered IDLE first (R93), but one whose RECOVER is kept unsent after the
other, which goes on before it when a hold ceases (R101); of two kept RECOVERs, that of the one that entered IDLE first goes
first. (DESIGN CHOICE, log 61.) -/
def Plant.firstActor (x : Plant) : Acc :=
  let a := x.mou.firstIdle
  if (x.acc a).state = .recovering ∧ (x.acc a.other).state ≠ .recovering then a.other else a

/-- The accessors act, the first before the other, until neither can (R93, R101). (DESIGN CHOICE, log 61.) -/
def Plant.motion (e : Env) : Nat → Plant → Plant
  | 0, x => x
  | n + 1, x =>
    match x.act e x.firstActor with
    | some y => Plant.motion e n y
    | none =>
      match x.act e x.firstActor.other with
      | some y => Plant.motion e n y
      | none => x

/-! ### The end of an action (R58, R60, R61, R77) -/

/-- A service slot that holds a reel for no task while no prompt names it draws a RECOVERY request (R77); in RESTARTING
the requests wait for RUNNING (R54). -/
def Plant.requestSlots (x : Plant) : Plant :=
  if x.mgu.lib = .running then
    (List.finRange 8).foldl (fun y n =>
      if (y.service n).state = .occupied ∧ (y.service n).task = none ∧ !y.pru.namesSlot (.service n) then
        y.requestRecovery (.service n)
      else y) x
  else x

/-- One round of the end of an action: waiters are served, the RACK-FULL prompt follows them, ZONE waits are judged, and
the accessors act. (DESIGN CHOICE, log 61.) -/
def Plant.settleRound (e : Env) (x : Plant) : Plant :=
  (((x.serveWaiters e 64).followRackFull e).judgeZoneWaits).motion e 64

/-- The end of an action: what the accessors do may free a slot for a waiter again, so it goes in rounds; then the reels
that no task holds are asked for. (DESIGN CHOICE, log 61.) -/
def Plant.settle (e : Env) (x : Plant) : Plant :=
  (((x.settleRound e).settleRound e).settleRound e).requestSlots

end Sys2Proof.Machine
end

