-- ==== Sys2Proof/Machine/Faults.lean ====
section
/-!
DEFINITION. Reports of the accessors: completions and faults, the RECOVER report and the settling of tasks and reels by
what the gripper holds (R79, R85, R88, R102–R109, R228).
-/
namespace Sys2Proof.Machine

/-! ### The answered marks (R228) -/

/-- While RESTARTING, an accessor's fault or fit report sets its mark; RECOVERY requests are made for what the restart
left when both have answered (R54). -/
def Mgu.answer (a : Acc) (m : Mgu) : Mgu :=
  match a with
  | .A => { m with ansA := true }
  | .B => { m with ansB := true }

/-- The RECOVERY requests of a library that is RUNNING again (R54, R132): OCCUPIED handoff and service slots with no
task, and HELD-REEL drives with unload seen whose reel no live task holds. -/
def Plant.requestLeft (x : Plant) : Plant :=
  let y := (List.finRange 4).foldl (fun y h =>
    if (y.handoff h).state = .occupied ∧ (y.handoff h).task = none then y.requestRecovery (.handoff h) else y) x
  let z := (List.finRange 8).foldl (fun y n =>
    if (y.service n).state = .occupied ∧ (y.service n).task = none ∧ !y.pru.namesSlot (.service n) then
      y.requestRecovery (.service n)
    else y) y
  (List.finRange 32).foldl (fun y d =>
    if (y.drive d).eff = .heldReel ∧ (y.drive d).unloadSeen ∧ !y.driveHeld d then y.requestRecovery (.drive d) else y) z

def Plant.answered (a : Acc) (x : Plant) : Plant :=
  if x.mgu.lib = .restarting then
    let y := { x with mgu := x.mgu.answer a }
    if y.mgu.ansA ∧ y.mgu.ansB then ({ y with mgu.lib := .running } : Plant).requestLeft else y
  else x

/-! ### Faults (R105, R79) -/

/-- A task leg stopped by its accessor's fault (R79): the task keeps its reservations and waits on the accessor's
prompt. -/
def Plant.faultTask (a : Acc) (t : TaskNo) (n : Nat) (x : Plant) : Plant :=
  (({ x with mou.queue := x.mou.queue.filter (fun l => l.owner ≠ Owner.task t) } : Plant).updTask t
    ({ · with faulted := some a, waiter := none })).enterOpwait t n .accessorFault

/-- The destination held for a wrong reel's carry is given up (R79): a reserved place becomes EMPTY and a drive held for
the reel is taken up (R125). (DEDUCED, log 66.) -/
def Plant.dropCarry (e : Env) (dst : Option Location) (x : Plant) : Plant :=
  match dst with
  | some (.service n) => if (x.service n).state = .reserved then x.setService n Slot.clear else x
  | some (.handoff h) => if (x.handoff h).state = .reserved then x.setHandoff h Slot.clear else x
  | some (.cell c) =>
    match (x.cell c).occ with
    | .reserved _ _ => x.setOcc c .empty
    | _ => x
  | some (.drive d) => if (x.drive d).eff = .heldReel ∧ (x.drive d).volume = none then x.takeUp e d else x
  | _ => x

/-- What becomes of a faulted accessor's leg (R105 step 5). A leg that a new plan of its task has taken the place of just ends,
and the new plan stands (DEDUCED, log 34); an audit leg that ADU had already asked to end has ended, and
ADU is told so. (DESIGN CHOICE, log 73.) -/
def Plant.faultLeg (e : Env) (a : Acc) (l : Option Leg) (ending : Bool) (n : Nat) (x : Plant) : Plant :=
  match l with
  | none => x
  | some g =>
    match g.owner with
    | .task t => x.faultTask a t n
    | .found _ _ => if g.work = .carry then x.dropCarry e g.dst else x
    | .audit m => if ending then x.auditStopped e m else x.suspendLeg e m g

/-- A step whose fault leaves the bay unknown (R105 step 2). -/
def StepKind.movesBay : StepKind → Bool
  | .travel _ | .recover _ _ => true
  | _ => false

/-- An accessor faults (R105). -/
def Plant.fault (e : Env) (a : Acc) (f : FaultCode) (x : Plant) : Plant :=
  let c := x.acc a
  let lost := c.step.any fun s => s.kind.movesBay
  let y := (x.updAcc a fun c =>
    { c with state := .faulted, step := none, lastFault := some f, bay := if lost then none else c.bay, leg := none,
             errand := none, ending := false, recoverDue := false }).withdrawClaim a
  let r := (y.setFlag e .accessorFault).request e .accessorFault { acc := some a, code := some f } (.acc a)
  (r.1.faultLeg e a c.leg c.ending r.2).answered a

/-- A report that does not fit the step in flight is counted late (R85). -/
def Plant.late (a : Acc) (x : Plant) : Plant := x.updAcc a fun c => { c with late := satAdd 65535 c.late 1 }

/-- The step in flight a report of this tag answers, if any (R85). -/
def Plant.inFlight (a : Acc) (tag : Byte) (x : Plant) : Option StepKind :=
  match (x.acc a).step with
  | some s => if s.tag = tag then some s.kind else none
  | none => none

/-! ### Completions (R88, R102, R103) -/

/-- An audit leg has ended: a pass ended by a mode change is told so; any other has read its last position. -/
def Plant.endAudit (e : Env) (a : Acc) (n : ListNo) (stopped : Bool) (x : Plant) : Plant :=
  let y := x.endLeg e a
  if stopped then y.auditStopped e n else y.completeEntry e n

/-- The completion of a TRAVEL (R88, R95, R98): the bay, a release outside the zone, the end of an errand, and the end
of a leg MOU was asked to end. -/
def Plant.arrive (e : Env) (a : Acc) (b : Nat) (x : Plant) : Plant :=
  let c := x.acc a
  let y := x.updAcc a fun c =>
    { c with step := none, bay := some b, errand := none, leg := c.leg.map fun l => { l with steps := l.steps + 1 } }
  let z := if !inZone b ∧ x.mou.holder = some a then y.releaseZone e else y
  match c.leg with
  | none => z.goIdle e a
  | some l =>
    if c.ending then
      match l.owner with
      | .task t => (z.endLeg e a).afterEnding e a t
      | .audit n => z.endAudit e a n true
      | .found _ _ => z.endLeg e a
    else z

/-- The completion of a READ (R102, R103): the readings go to ADU, the next position moves past them, and the leg ends,
is suspended or goes on. -/
def Plant.readDone (e : Env) (a : Acc) (bay first last : Nat) (rs : List Reading) (x : Plant) : Plant :=
  let c := x.acc a
  match c.leg with
  | none => (x.updAcc a ({ · with step := none })).goIdle e a
  | some l =>
    match l.owner with
    | .audit n =>
      let g := { l with pos := last + 1, steps := l.steps + 1 }
      let y := ((x.updAcc a ({ · with step := none, leg := some g })).updList n
        fun k => { k with pos := some (min 15 (last + 1)) }).judgeReadings e a n bay first rs
      if c.ending then y.endAudit e a n true
      else if l.last ≤ last then y.endAudit e a n false
      else if y.higherWaits a then ((y.endLeg e a).suspendLeg e n g)
      else y
    | _ => x.updAcc a ({ · with step := none })

/-! ### The RECOVER report (R108, R79) -/

def readingLabel : Reading → Option Label
  | .empty => none
  | .serial s => some (.serial s)
  | .unreadable => some .unreadable

/-- A task bound to a volume that was believed in a gripper and has been lost there looks for it, as R79's table has it: one
with a leg from that gripper, and one left without a leg by the finding of its reel, which waits for nothing else.
(DEDUCED, log 92.) -/
def Plant.looksFor (a : Acc) (t : TaskNo) (x : Plant) : Bool :=
  x.mou.queue.any (fun l => l.owner = Owner.task t ∧ l.src = Location.gripper a)
    || (x.task? t).any fun k =>
      (k.state = .moving || k.state = .demounting) && k.prompt.isNone && k.waiter.isNone && k.faulted.isNone

/-- A volume believed in a gripper and not found there becomes UNKNOWN (R79, R108), and the task bound to it looks for it. -/
def Plant.notInGripper (e : Env) (a : Acc) (g : Option Serial) (x : Plant) : Plant :=
  match x.ltu.volumes.find? (fun v => v.loc = .gripper a ∧ g ≠ some v.serial) with
  | none => x
  | some v =>
    let y := x.moveVol v.serial .unknown
    match v.bound with
    | some t =>
      if !x.looksFor a t then y
      else if (y.task? t).any (·.returns) ∧ y.underWay t then y
      else (y.supersede e t).planAnew e t
    | none => y

/-- The task that waits on this accessor's recovery goes on, its reel where the report has put it (R79): with a pending final
status by the RETURN plan, a demount too; else by the movement it was making, or, where its reel has come to a service slot
that is not its own, afresh from it. (DEDUCED, logs 36 and 68.) -/
def Plant.goOn (e : Env) (t : TaskNo) (x : Plant) : Plant :=
  match x.task? t with
  | none => x
  | some k =>
    if k.pending.isSome then x.turnBack e t
    else
      match x.reelAt k, k.work with
      | some .outside, _ | some .unknown, _ => x.planAnew e t
      | some (.service n), some w => if x.slotHeld t = some n then x.planMove e t w else x.planAnew e t
      | _, some w => x.planMove e t w
      | _, none => x.planAnew e t

/-- A pick taken as completed with a match by the RECOVER report (R79, R66). -/
def Plant.pickByRecover (e : Env) (a : Acc) (t : TaskNo) (s : Serial) (src : Location) (w : Option Work) (x : Plant) : Plant :=
  let y := ((x.moveVol s (.gripper a)).updAcc a ({ · with viaEntry := src.isEntry })).vacate e (some t) src
  let y := y.updTask t ({ · with preClaim := none })
  match src, w with
  | .entry _, some .toDrive | .entry _, some .store => y.releaseService t
  | _, _ => y

/-- A task with a volume serial, settled by what the gripper holds; whether it took the reel up. (DEDUCED, log 68.) -/
def Plant.settleKnown (e : Env) (a : Acc) (r : Option Label) (t : TaskNo) (k : Task) (s : Serial) (x : Plant) :
    Plant × Bool :=
  let inGripper : Bool := x.volLoc s = some (Location.gripper a)
  if r = some (Label.serial s) then
    if inGripper then (x.goOn e t, true)
    else
      match x.volLoc s with
      | some src => (((x.pickByRecover e a t s src k.work).offerSlots e).goOn e t, true)
      | none => (x, false)
  else if inGripper then ((x.moveVol s .unknown).goOn e t, false)
  else (x.goOn e t, false)

/-- A task without a volume serial, settled by the gripper alone: a reel there is taken as the reading of its pick.
(DEDUCED, log 46.) -/
def Plant.settleReel (e : Env) (a : Acc) (r : Option Label) (t : TaskNo) (k : Task) (x : Plant) : Plant × Bool :=
  if k.source = some (Location.gripper a) then
    match r with
    | none => (x.endTask e t none, false)
    | some l =>
      if (x.volAt? (.gripper a)).map (fun v : Volume => Label.serial v.serial) = some l then (x.goOn e t, true)
      else ((x.notInGripper e a (labelSerial l)).identified e a t l, true)
  else
    match r, k.source with
    | some l, some src =>
      let y := (x.updAcc a ({ · with viaEntry := src.isEntry })).leaveUnread e (some t) src (some l)
      ((y.offerSlots e).identified e a t l, true)
    | _, _ => (x.goOn e t, false)

/-- Settling one task by what the gripper holds (R79). -/
def Plant.settleTask (e : Env) (a : Acc) (r : Option Label) (t : TaskNo) (x : Plant) : Plant × Bool :=
  match x.task? t with
  | none => (x, false)
  | some k =>
    let y := x.updTask t ({ · with faulted := none })
    match k.serial with
    | some s => y.settleKnown e a r t k s
    | none => y.settleReel e a r t k

/-- The tasks that wait on an accessor's recovery, lowest number first. -/
def Plant.faultedOn (a : Acc) (x : Plant) : List TaskNo :=
  (x.taskList.filter fun p => p.2.faulted = some a).map (·.1)

/-- A reel found in the gripper that no task takes up (R63, R77): a volume of the table has its location rewritten, a
task waiting for it goes on, and any other reel that no live task holds draws a RECOVERY request. -/
def Plant.foundInGripper (e : Env) (a : Acc) (l : Label) (x : Plant) : Plant :=
  let ask (y : Plant) : Plant := if y.gripHeld a then y else y.requestRecovery (.gripper a)
  match x.labelled l with
  | none => ask x
  | some v =>
    let y := match v.bound with
      | some u => if v.loc = Location.gripper a then x else x.dropLegs e u
      | none => x
    let y := y.moveFound v.serial (.gripper a)
    match v.bound with
    | some u => if (y.findPrompt u).isSome then y.resolve e u (y.acc a).viaEntry else ask y
    | none => ask y

/-- A fit RECOVERED report (R108). The tenure timer of a holder in the zone starts afresh from the value of its grant (R96,
R110). (DEDUCED, logs 65 and 69.) -/
def Plant.recovered (e : Env) (a : Acc) (bay : Nat) (g : Reading) (x : Plant) : Plant :=
  let y := x.updAcc a ({ · with step := none, bay := some bay })
  let y :=
    if x.mou.holder = some a then
      if inZone bay then { y with mou.tenureEnd := some (e.tick + ticks y.mou.tenure) } else y.releaseZone e
    else y
  let r := readingLabel g
  let y := match r with
    | none => y.updAcc a ({ · with gripper := .empty, read := none })
    | some l => y.gripRead a l
  let y := y.updAcc a fun c =>
    { c with viaEntry := c.viaEntry && c.gripper ≠ .empty && c.gripper = (x.acc a).gripper }
  let y := y.goIdle e a
  let (y, taken) := (y.faultedOn a).foldl (fun (p : Plant × Bool) t =>
    let q := p.1.settleTask e a r t
    (q.1, p.2 || q.2)) (y, false)
  let y := y.notInGripper e a (r.bind labelSerial)
  let y := match r with
    | some l => if taken then y else y.foundInGripper e a l
    | none => y
  y.answered a

/-- A RECOVERED report is fit (R108). -/
def recoverFit (a : Acc) (clear : Bool) (bay : Nat) : Bool := reach a bay && !(clear && inZone bay)

end Sys2Proof.Machine
end

