-- ==== Sys2Proof/Machine/State.lean ====
section
/-!
DEFINITION. The state of the LR-6, the reasons a command can stop, and the state right after reset.
-/
namespace Sys2Proof.Machine

/-- The whole part: time, settings, pins and fence; the intake queues; the accounts and the accounting buffer; the
blocks the work of the library moves; and the commands that wait, first in, first out. -/
structure State where
  env : Env
  oiu : Oiu
  acu : Acu
  plant : Plant
  pending : List Instr
deriving DecidableEq, Repr

/-- The reasons for which the part itself stops. The manual names none: every refusal of an order, a command or a key
is an answer on a link, and every fault of a mechanism is a state the part holds. So there is no constructor, and no
command can end in a fault. -/
inductive Fault where
deriving DecidableEq, Repr

/-- The reasons for which the model would give a command no meaning. -/
inductive Refusal where
  /-- Raised by an arm of `exec` whose command has no meaning yet; no arm raises it. Safe: the run stops. -/
  | notModelled (mnemonic : String)
deriving DecidableEq, Repr

/-- The part right after power-on with the image-skip strap clear, as it leaves the factory: STARTING, with the image
read begun (R223), and no command waiting. (DESIGN CHOICE, logs 2 and 60.) -/
def State.reset : State where
  env := Env.boot { working := factoryFence, stored := factoryFence, persist := none } false
  oiu := Oiu.boot
  acu := Acu.boot
  plant := Plant.boot { c := [], m := [] } 0
  pending := []

end Sys2Proof.Machine
end

