-- ==== Sys2Proof/Machine/Action.lean ====
section
/-!
DEFINITION. How a command is taken: the held reset pin, the plant's own actions, the checks every management command
passes, and the pace judgement (R33, R216, R217, R223).
-/
namespace Sys2Proof.Machine

/-- A command is one action. While the reset pin is asserted the receivers take nothing and no timer runs (R223). -/
def State.run (f : State → State) (s : State) : Host.Outcome State Fault Refusal :=
  .next (if s.env.resetPin then s else f s)

/-- An action on the plant. -/
def State.plantly (f : Env → Plant → Plant) (s : State) : State := { s with plant := f s.env s.plant }

/-- An action after which the accessors and the waiters settle. -/
def State.moving (f : Env → Plant → Plant) (s : State) : State := { s with plant := (f s.env s.plant).settle s.env }

/-- The accessors and the waiters settle. -/
def State.settled (s : State) : State := { s with plant := s.plant.settle s.env }

/-- A MGMT-REPLY to a command. -/
def State.say (h : Hdr) (r : Reply) (c : Contents) (s : State) : State := { s with plant := s.plant.reply h r c }

/-- ACCEPTED with no contents. -/
def State.accept (h : Hdr) (s : State) : State := s.say h .accepted .nothing

/-- A read's answer. -/
def State.show (h : Hdr) (c : Contents) (s : State) : State := s.say h .data c

/-- A management command (R216, R217): NOT PERMITTED from a path outside the mask, NOT READY in STARTING, BAD VALUE for a
field malformed in length; otherwise its owner takes it. -/
def State.manage (h : Hdr) (body : State → State) (s : State) : State :=
  if !s.env.set.mgmtMask.getLsbD h.path.val then s.say h .notPermitted .nothing
  else if s.plant.mgu.lib = .starting then s.say h .notReady .nothing
  else if !h.sized then s.say h .badValue .nothing
  else body s

/-- A management command as one action. -/
def State.mgmt (h : Hdr) (body : State → State) (s : State) : Host.Outcome State Fault Refusal := s.run (State.manage h body)

/-- A settings change answered ACCEPTED. -/
def State.setting (h : Hdr) (f : Settings → Settings) (s : State) : State :=
  ({ s with env := { s.env with set := f s.env.set } } : State).accept h

/-! ### Pace (R32, R33) -/

/-- The PACE mark. -/
def PaceSet.pace : PaceSet → Nat
  | .A => 12
  | .B => 14
  | .C => 8
  | .D n _ => n

/-- The RESUME mark. -/
def PaceSet.resume : PaceSet → Nat
  | .A => 6
  | .B => 10
  | .C => 2
  | .D n h => n - h

def State.queue (p : Path) (s : State) : List QOrder := s.oiu.queues.get p

def State.setQueue (p : Path) (q : List QOrder) (s : State) : State := { s with oiu.queues := vset s.oiu.queues p q }

/-- A path status (R55). -/
def State.pathStatus (p : Path) (st : Status) (s : State) : State := { s with plant := s.plant.status p none .path st }

/-- The pace state of a path judged against its depth (R33). -/
def State.judgePace (p : Path) (s : State) : State :=
  let depth := (s.queue p).length
  if s.oiu.paced.get p then
    if depth ≤ s.env.set.pace.resume then
      ({ s with oiu.paced := vset s.oiu.paced p false } : State).pathStatus p .resume
    else s
  else if s.env.set.pace.pace ≤ depth then
    ({ s with oiu.paced := vset s.oiu.paced p true } : State).pathStatus p .pace
  else s

/-- Every path judged afresh, path 0 first (R32). (DESIGN CHOICE, log 75.) -/
def State.judgeAllPaces (s : State) : State := [(0 : Path), 1, 2, 3].foldl (fun s p => s.judgePace p) s

/-- A status to an order's path. -/
def State.toOrder (h : Hdr) (m : Mark) (st : Status) (s : State) : State := { s with plant := s.plant.status h.path (some h.tag) m st }

/-- A final status to an order settled at arrival. -/
def State.final (h : Hdr) (st : Status) (s : State) : State := s.toOrder h .last st

end Sys2Proof.Machine
end

