-- ==== Sys2Proof/Machine/Orders.lean ====
section
/-!
DEFINITION. The orders as they arrive: the arrival checks, the intake queues, queries, dismount and cancel (R28–R31,
R35–R43), and the ORDER frame of no known kind.
-/
namespace Sys2Proof.Machine

/-! ### Arrival (R29) -/

/-- A tag is live on a path (R29): in the intake queue, as an unanswered origin, or as a dismount requester. -/
def State.tagLive (p : Path) (tag : Byte) (s : State) : Bool :=
  (s.queue p).any (fun q => q.tag = tag)
    || s.plant.taskList.any (fun k => (k.2.origin = .path p tag && !k.2.answered) || k.2.requester = some (p, tag))

/-- The library takes orders (R29). -/
def LibState.takesOrders : LibState → Bool
  | .running | .restarting => true
  | _ => false

/-- The arrival checks (R29), the first that fails giving the final status. -/
def State.arrive (h : Hdr) (wellFormed mountKind : Bool) (body : State → State) (s : State) : State :=
  if !s.plant.mgu.lib.takesOrders then s.final h .notReady
  else if !(h.sized && wellFormed) then s.final h .badOrder
  else if s.tagLive h.path h.tag then s.final h .tagInUse
  else if mountKind && 16 ≤ (s.queue h.path).length then s.final h .busy
  else body s

/-- An order joins its queue (R30): QUEUED with the new depth, and the pace is judged. -/
def State.enqueue (h : Hdr) (q : QOrder) (s : State) : State :=
  let l := s.queue h.path ++ [q]
  ((s.setQueue h.path l).toOrder h .interim (.queued l.length)).judgePace h.path

/-- MOUNT (R27, R30). -/
def execMount (h : Hdr) (serial : List Byte) (drive intent account : Byte) (s : State) :
    Host.Outcome State Fault Refusal :=
  s.run fun s =>
    match serialOf serial, driveOf drive, intentOf intent with
    | some v, some d, some i =>
      s.arrive h true true fun s => s.enqueue h { tag := h.tag, kind := .mount v i, drive := d, account := account }
    | _, _, _ => s.arrive h false true id

/-- MOUNT SCRATCH (R27, R30). -/
def execMountScratch (h : Hdr) (drive account : Byte) (s : State) : Host.Outcome State Fault Refusal :=
  s.run fun s =>
    match driveOf drive with
    | some d =>
      s.arrive h true true fun s => s.enqueue h { tag := h.tag, kind := .scratch, drive := d, account := account }
    | none => s.arrive h false true id

/-! ### Queries (R35, R36) -/

/-- What QUERY VOLUME shows of a volume (R35). -/
def Volume.info (e : Env) (v : Volume) : VolumeInfo where
  cls := v.cls
  loc := v.loc
  ring := v.ring
  scratch := v.scratch
  watch := v.watch
  ringPull := v.ringPull
  misfiled := v.misfiled
  worn := v.worn
  fenced := e.fenced v.serial
  bound := v.bound.isSome
  mounts := v.mounts
  fails := v.fails

/-- QUERY VOLUME (R35). -/
def execQueryVolume (h : Hdr) (serial : List Byte) (s : State) : Host.Outcome State Fault Refusal :=
  s.run fun s =>
    match serialOf serial with
    | some v => s.arrive h true false fun s =>
      match s.plant.vol? v with
      | some r => s.final h (.infoVolume (r.info s.env))
      | none => s.final h .notFound
    | none => s.arrive h false false id

/-- What QUERY DRIVE shows of a drive (R36). -/
def Drive.info (r : Drive) : DriveInfo where
  state := r.state
  preFault := r.preFault
  volume := r.volume
  bound := r.bound.isSome
  offlinePending := r.offlinePending
  mask := r.mask

/-- QUERY DRIVE (R36). -/
def execQueryDrive (h : Hdr) (drive : Byte) (s : State) : Host.Outcome State Fault Refusal :=
  s.run fun s =>
    match driveOf drive with
    | some d => s.arrive h true false fun s =>
      let r := s.plant.drive d
      if !r.present then s.final h .noDrive
      else if !r.mask.getLsbD h.path.val then s.final h .notReachable
      else s.final h (.infoDrive r.info)
    | none => s.arrive h false false id

/-! ### Dismount (R37, R38) -/

/-- The drive's state takes a DISMOUNT (R37 check 3). -/
def DriveState.dismountable : DriveState → Bool
  | .mounted | .unloading | .unloaded => true
  | _ => false

/-- The DISMOUNT becomes the requester; a MOUNTED drive is sent UNLOAD (R38). -/
def Plant.attachDismount (h : Hdr) (d : DriveNo) (t : TaskNo) (x : Plant) : Plant :=
  let y := x.updTask t ({ · with requester := some (h.path, h.tag) })
  if (x.drive d).state = .mounted then
    ((y.driveCommand d .unload).updDrive d ({ · with state := .unloading })).updTask t ({ · with state := .unloading })
  else y

/-- DISMOUNT (R37, R38). -/
def execDismount (h : Hdr) (drive : Byte) (s : State) : Host.Outcome State Fault Refusal :=
  s.run fun s =>
    match driveOf drive with
    | some d => s.arrive h true false fun s =>
      let r := s.plant.drive d
      if !r.present then s.final h .noDrive
      else if !r.mask.getLsbD h.path.val then s.final h .notReachable
      else if !r.state.dismountable then s.final h .notMounted
      else
        match r.bound with
        | none => s.final h .notMounted
        | some t =>
          if ((s.plant.task? t).bind (·.requester)).isSome then s.final h .alreadyDismounting
          else { s with plant := s.plant.attachDismount h d t }
    | none => s.arrive h false false id

/-! ### Cancel (R39–R43) -/

/-- A step of the task's leg is in flight at an accessor. -/
def Plant.stepOf (t : TaskNo) (x : Plant) : Option Acc :=
  [Acc.A, Acc.B].find? fun a =>
    (x.acc a).step.isSome && (match (x.acc a).leg with | some l => l.owner = .task t | none => false)

/-- A task whose order is cancelled (R41–R43), by where its reel is. A mount whose reel has been put back on a drive that is
not its own ends at once, the reel being left to that drive's RECOVERY task. (DEDUCED, logs 39 and 40; DESIGN CHOICE,
log 91.) -/
def Plant.cancelTask (e : Env) (t : TaskNo) (k : Task) (x : Plant) : Plant :=
  let back (y : Plant) : Plant := ((y.updTask t ({ · with pending := some .cancelled })).dropLegs e t).turnBack e t
  match x.stepOf t with
  | some a => (x.updTask t ({ · with pending := some .cancelled })).updAcc a ({ · with ending := true })
  | none =>
    match x.reelAt k with
    | some (.drive _) => if x.onDrive t then x.cancelAtDrive e t else x.endTask e t (some .cancelled)
    | some (.gripper a) => if (x.acc a).state.working then back x else x.endTask e t (some .cancelled)
    | some (.handoff _) | some (.service _) => back x
    | _ => x.endTask e t (some .cancelled)

/-- The task with a path and tag as its origin and its order unanswered. -/
def Plant.unanswered? (p : Path) (tag : Byte) (x : Plant) : Option (TaskNo × Task) :=
  x.taskList.find? fun k => k.2.origin = .path p tag && !k.2.answered

/-- Some task with this path and tag as its origin was answered MOUNTED. (DEDUCED, log 38.) -/
def Plant.wasMounted (p : Path) (tag : Byte) (x : Plant) : Bool :=
  x.taskList.any fun k => k.2.origin = .path p tag && k.2.answered && k.2.mountedTick.isSome

/-- A queued target leaves its queue, answered CANCELLED before the CANCEL is (R40); a RESUME its going draws comes before
CANCEL TAKEN. (DESIGN CHOICE, log 77.) -/
def State.cancelQueued (h : Hdr) (target : Byte) (s : State) : State :=
  let q := (s.queue h.path).filter fun o => o.tag ≠ target
  let y := (s.setQueue h.path q).toOrder { h with tag := target } .last (.ended .cancelled 0)
  (y.judgePace h.path).final h .cancelTaken

/-- CANCEL (R39): of a target that is a task, what it receives at once comes before CANCEL TAKEN: the MOVING or WAITING of a
task that is turned back (R42), the CANCELLED of one that ends (R41). (DEDUCED, log 38; DESIGN CHOICE, log 76.) -/
def execCancel (h : Hdr) (target : Byte) (s : State) : Host.Outcome State Fault Refusal :=
  s.run fun s => s.arrive h true false fun s =>
    if (s.queue h.path).any (fun o => o.tag = target) then s.cancelQueued h target
    else if s.plant.taskList.any (fun k => k.2.requester = some (h.path, target)) then s.final h .tooLate
    else
      match s.plant.unanswered? h.path target with
      | some (t, k) =>
        if k.pending.isSome then s.final h .alreadyEnding
        else (({ s with plant := s.plant.cancelTask s.env t k } : State).final h .cancelTaken).settled
      | none => if s.plant.wasMounted h.path target then s.final h .tooLate else s.final h .notFound

/-- BAD_ORDER: an ORDER frame whose kind code names none of the six (R28, R29, R232); for a code that names a kind the
command is not this event and changes nothing. (DESIGN CHOICE, log 79.) -/
def execBadOrder (h : Hdr) (kind : Byte) (s : State) : Host.Outcome State Fault Refusal :=
  s.run fun s => if 1 ≤ kind.toNat ∧ kind.toNat ≤ 6 then s else s.arrive h false false id

end Sys2Proof.Machine
end

