-- ==== Sys2Proof/Machine/Admission.lean ====
section
/-!
DEFINITION. The admission arbiter and its claimants: queued orders with their checks, RECOVERY and REFILE tasks, ENTER
and EJECT tasks (R23, R44–R49, R74–R77).
-/
namespace Sys2Proof.Machine

/-! ### Scratch selection (R23) -/

/-- A volume both walks of a scratch selection consider (R23). -/
def Volume.selectable (e : Env) (v : Volume) : Bool :=
  (match v.loc with | .cell _ => true | _ => false) && v.bound.isNone && !e.fenced v.serial && !v.worn

/-- One walk of the pool from its head. -/
def Plant.walkPool (e : Env) (r : Ring) (x : Plant) : Option Serial :=
  x.ltu.pool.find? fun s =>
    match x.vol? s with
    | some v => v.selectable e && v.ring = r
    | none => false

/-- The volume a scratch selection takes: RINGED in the first walk, RINGLESS in the second. -/
def Plant.selectScratch (e : Env) (x : Plant) : Option Serial := (x.walkPool e .ringed).or (x.walkPool e .ringless)

/-! ### Checks (R46, R49) -/

/-- Checks 1 to 3 of R46: the drive. -/
def Drive.admits (p : Path) (r : Drive) : Option Final :=
  if !r.present then some .noDrive
  else if !r.mask.getLsbD p.val then some .notReachable
  else if r.state = .offline ∨ r.state = .faulted ∨ r.state = .heldReel then some .driveOffline
  else if r.bound.isSome then some .driveOccupied
  else none

/-- A location at which a volume is held by a drive or a mechanism (R46 check 5). -/
def Location.held : Location → Bool
  | .drive _ | .gripper _ | .handoff _ => true
  | _ => false

/-- Checks 4 to 6 of R46: the volume, with a visitor created where the serial is not held. A visitor that check 6 would
refuse is not created: created and deleted in one action, it leaves the table as it was. -/
def Plant.admitsVolume (e : Env) (s : Serial) (i : Intent) (x : Plant) : Option Final :=
  match x.vol? s with
  | none =>
    if x.tableFull then some .tableFull
    else if i = .write ∧ e.fenced s then some .fenced
    else none
  | some v =>
    if v.bound.isSome ∨ v.loc.held then some .volumeInUse
    else if i = .write ∧ e.fenced s then some .fenced
    else if i = .write ∧ v.worn then some .worn
    else none

/-- A volume is bound to a task, a visitor being created for a serial not held (R8, R9). -/
def Plant.bindVolume (s : Serial) (t : TaskNo) (x : Plant) : Plant :=
  match x.vol? s with
  | some _ => x.updVol s ({ · with bound := some t })
  | none => x.putVol (Volume.visitor s t)

/-! ### Binding and start (R47, R48) -/

/-- Steps 4 and 5 of R47. -/
def Plant.startMount (e : Env) (t : TaskNo) (d : DriveNo) (x : Plant) : Plant :=
  if (x.drive d).eff = .cleanDue then (x.tag t .cleanWaited).enterWaiting t .clean else x.planTask e t

/-- Steps 1 to 5 of R47 for a mount whose checks have passed. -/
def Plant.bindAndStart (e : Env) (t : TaskNo) (d : DriveNo) (s : Serial) (reached : Bool) (acct : Byte) (x : Plant) : Plant :=
  let y := ((x.bindVolume s t).updDrive d (·.bind t)).interim t (.admitted t s)
  if reached then y.taskPrompt e t .allowance { account := some acct, vol := some s } else y.startMount e t d

/-- The task record of an order taken from a queue. -/
def Task.ofOrder (p : Path) (o : QOrder) (s : Serial) (now : Tick) : Task :=
  match o.kind with
  | .mount _ i =>
    { Task.new .mount (.path p o.tag) now with serial := some s, drive := some o.drive, intent := i, account := o.account }
  | .scratch =>
    { Task.new .mountScratch (.path p o.tag) now with
      serial := some s, drive := some o.drive, intent := .write, account := o.account }

/-- The outcome of the checks: the volume to mount, or the final status that refuses the order. -/
def Plant.check (e : Env) (p : Path) (o : QOrder) (x : Plant) : Except Final Serial :=
  match (x.drive o.drive).admits p with
  | some f => .error f
  | none =>
    match o.kind with
    | .mount s i =>
      match x.admitsVolume e s i with
      | some f => .error f
      | none => .ok s
    | .scratch =>
      match x.selectScratch e with
      | some s => .ok s
      | none => .error .noScratch

/-- The admission of an order in a record of its own (R46–R49); a refused order's record is free again. -/
def Plant.admission (e : Env) (t : TaskNo) (p : Path) (o : QOrder) (reached : Bool) (x : Plant) : Plant :=
  match x.check e p o with
  | .error f => { x.status p (some o.tag) .last (.ended f 0) with tcu.choices := x.tcu.choices + 1 }
  | .ok s => (x.newTask t (Task.ofOrder p o s e.tick)).bindAndStart e t o.drive s reached o.account

/-! ### The arbiter (R44, R45) -/

/-- The path served next: the first non-empty queue after the one last served. -/
def State.nextPath (s : State) : Option Path :=
  let l := s.oiu.lastServed
  [l + 1, l + 2, l + 3, l].find? fun p => s.queue p ≠ []

/-- The accounting bound allows an admission (R45). -/
def State.boundAllows (s : State) : Bool := s.acu.buffer.length + s.plant.openMounts < 128

/-- A refile judgement that is due comes before the next queued order (R44). (DEDUCED, log 11.) -/
def Plant.refileDue (x : Plant) : Option Volume := x.ltu.volumes.find? fun v => v.refilePending && x.refileReady v

/-- A queued order may be taken (R44). (DEDUCED, log 11.) -/
def State.mayAdmit (s : State) : Bool :=
  s.plant.mgu.lib = .running && s.plant.tcu.requests = [] && s.plant.refileDue.isNone && s.boundAllows

/-- ADMISSION (R44–R49): the head of the next queue is admitted or refused; where no order may be taken, nothing. A RESUME
that the going of the order draws is sent after the order's own statuses. (DESIGN CHOICE, log 85.) -/
def execAdmission (s : State) : Host.Outcome State Fault Refusal :=
  s.run fun s =>
    if !s.mayAdmit then s
    else
      match s.nextPath, s.plant.freeRecord with
      | some p, some t =>
        match s.queue p with
        | [] => s
        | o :: rest =>
          let y := ({ s with oiu.lastServed := p } : State).setQueue p rest
          let reached := (s.acu.accounts.get o.account.toFin).reached
          ((y.plantly fun e x => x.admission e t p o reached).judgePace p).settled
      | _, _ => s

/-! ### RECOVERY tasks (R77) -/

/-- A waiting request still names a reel that no live task holds; for a cell's, an unbound volume in a cell, whatever its class
by then. (DEDUCED and DESIGN CHOICE, log 12.) -/
def Plant.stands (r : Request) (x : Plant) : Bool :=
  match r with
  | .gripper a =>
    match (x.acc a).gripper with
    | .known _ | .unknownReel => !x.gripHeld a
    | _ => false
  | .handoff h => (x.handoff h).state = .occupied ∧ (x.handoff h).task = none
  | .service n => (x.service n).state = .occupied ∧ (x.service n).task = none
  | .drive d => (x.drive d).eff = .heldReel ∧ (x.drive d).unloadSeen ∧ !x.driveHeld d
  | .cell s =>
    match x.vol? s with
    | some v => (match v.loc with | .cell _ => true | _ => false) && v.bound.isNone
    | none => false

/-- A known volume taken up by a RECOVERY task, which binds it (R77). -/
def Plant.takeUpVolume (e : Env) (t : TaskNo) (s : Serial) (x : Plant) : Plant :=
  ((x.updVol s ({ · with bound := some t })).updTask t ({ · with serial := some s })).planSettle e t

/-- A RECOVERY task's plan from the reel its request names (R77). (DEDUCED, log 42.) -/
def Plant.planRecovery (e : Env) (t : TaskNo) (r : Request) (x : Plant) : Plant :=
  let place (l : Location) : Plant := x.updTask t ({ · with source := some l })
  match r with
  | .gripper a =>
    match (x.acc a).gripper with
    | .known s =>
      match (x.vol? s).bind (·.bound) with
      | some u => ((place (.gripper a)).dropLegs e u).planMove e t (.handover u)
      | none => x.takeUpVolume e t s
    | _ => ((place (.gripper a)).updTask t ({ · with readSerial := (x.acc a).read })).planReel e t
  | .handoff h => ((place (.handoff h)).setHandoff h { x.handoff h with task := some t }).planReel e t
  | .service n =>
    match (x.service n).content with
    | some (.known s) =>
      match (x.vol? s).bind (·.bound) with
      | some _ => (x.handTo e n s false).endTask e t none
      | none => x.takeUpVolume e t s
    | _ => (place (.service n)).planReel e t
  | .drive d => (place (.drive d)).planReel e t
  | .cell s => x.takeUpVolume e t s

/-- The origin of a RECOVERY task: AUDIT for a visitor found in a cell, else INTERNAL (R77). -/
def Request.origin : Request → Origin
  | .cell _ => .audit
  | _ => .internal

/-- RECOVERY_TASK_CREATION (R44, R77): the oldest waiting request takes a free record; a request whose reel has been
taken up since is dropped. (DEDUCED, log 12.) -/
def execRecoveryTaskCreation (s : State) : Host.Outcome State Fault Refusal :=
  s.run fun s =>
    match s.plant.tcu.requests, s.plant.freeRecord with
    | r :: rest, some t =>
      let y : State := { s with plant.tcu.requests := rest }
      if y.plant.stands r then
        y.moving fun e x => (x.newTask t (Task.new .recovery r.origin e.tick)).planRecovery e t r
      else y
    | _, _ => s

/-- REFILE_TASK_CREATION (R44, R76): the first volume in serial order whose pending mark the judgement now grants, once no
RECOVERY request waits. (DEDUCED, log 11.) -/
def execRefileTaskCreation (s : State) : Host.Outcome State Fault Refusal :=
  s.run fun s =>
    if s.plant.tcu.requests = [] then
      match s.plant.refileDue with
      | some v => s.moving fun e x => x.createRefile e v
      | none => s
    else s

/-! ### ENTER and EJECT tasks (R74, R75) -/

/-- LTU's claim of an entry slot for an ENTER key, with its task (R20, R74). -/
def Plant.enterTask (e : Env) (t : TaskNo) (n : Fin 8) (x : Plant) : Plant :=
  let k := { Task.new .enter .operator e.tick with source := some (.entry n) }
  ((x.newTask t k).setEntry n (Slot.hold .unknown (some t))).planReel e t

/-- An EJECT task is created and its volume bound; ACCEPTED carries its task number (R75). -/
def Plant.ejectTask (e : Env) (h : Hdr) (t : TaskNo) (s : Serial) (x : Plant) : Plant :=
  let k := { Task.new .eject .management e.tick with serial := some s }
  (((x.newTask t k).updVol s ({ · with bound := some t })).reply h .accepted (.taskNumber t)).planEject e t

end Sys2Proof.Machine
end

