-- ==== Sys2Proof/Machine/Reports.lean ====
section
/-!
DEFINITION. The accessors' reports and the Motion Unit's expiries as commands (R84–R86, R92, R96, R105, R108).
-/
namespace Sys2Proof.Machine

/-- A step report (R85): acted on when its tag names the step in flight and its kind fits it, else counted late. -/
def State.report (a : Acc) (tag : Byte) (f : StepKind → Option (Env → Plant → Plant)) (s : State) : State :=
  match (s.plant.inFlight a tag).bind f with
  | some g => s.moving g
  | none => s.plantly fun _ x => x.late a

/-- ARRIVED (R86, R88). -/
def execArrived (a : Acc) (tag : Byte) (s : State) : Host.Outcome State Fault Refusal :=
  s.run (State.report a tag fun k =>
    match k with
    | .travel b => some fun e x => x.arrive e a b
    | _ => none)

/-- PICKED (R66, R86, R88). -/
def execPicked (a : Acc) (tag : Byte) (label : Label) (s : State) : Host.Outcome State Fault Refusal :=
  s.run (State.report a tag fun k =>
    match k with
    | .pick _ _ => some fun e x => x.pickDone e a label
    | _ => none)

/-- GRIP-MISS (R69, R86). -/
def execGripMiss (a : Acc) (tag : Byte) (s : State) : Host.Outcome State Fault Refusal :=
  s.run (State.report a tag fun k =>
    match k with
    | .pick _ _ => some fun e x => x.gripMissDone e a
    | _ => none)

/-- PLACED (R86, R89). -/
def execPlaced (a : Acc) (tag : Byte) (s : State) : Host.Outcome State Fault Refusal :=
  s.run (State.report a tag fun k =>
    match k with
    | .place _ _ => some fun e x => x.placeDone e a
    | _ => none)

/-- PLACE-BLOCKED (R70, R86). -/
def execPlaceBlocked (a : Acc) (tag : Byte) (s : State) : Host.Outcome State Fault Refusal :=
  s.run (State.report a tag fun k =>
    match k with
    | .place _ _ => some fun e x => x.blockedDone e a
    | _ => none)

/-- READ-DONE (R86 note 1, R102): the number of readings fits the positions of the READ. -/
def execReadDone (a : Acc) (tag : Byte) (readings : List Reading) (s : State) : Host.Outcome State Fault Refusal :=
  s.run (State.report a tag fun k =>
    match k with
    | .read bay first last =>
      if first + readings.length = last + 1 then some fun e x => x.readDone e a bay first last readings else none
    | _ => none)

/-- RECOVERED (R86, R108): an unfit report faults the accessor with the code POSITION. -/
def execRecovered (a : Acc) (tag : Byte) (bay : Byte) (gripper : Reading) (s : State) :
    Host.Outcome State Fault Refusal :=
  s.run (State.report a tag fun k =>
    match k with
    | .recover clear _ =>
      if recoverFit a clear bay.toNat then some fun e x => x.recovered e a bay.toNat gripper
      else some fun e x => x.fault e a .position
    | _ => none)

/-- MOTOR: a fault report of every step (R86, R105). -/
def execMotor (a : Acc) (tag : Byte) (s : State) : Host.Outcome State Fault Refusal :=
  s.run (State.report a tag fun _ => some fun e x => x.fault e a .motor)

/-- A step that reads a label (R86). -/
def StepKind.readsLabel : StepKind → Bool
  | .pick _ _ | .read _ _ _ | .recover _ _ => true
  | _ => false

/-- LABEL-DEVICE: a fault report of PICK, READ and RECOVER (R86, R105). -/
def execLabelDevice (a : Acc) (tag : Byte) (s : State) : Host.Outcome State Fault Refusal :=
  s.run (State.report a tag fun k => if k.readsLabel then some fun e x => x.fault e a .labelDevice else none)

/-- STEP_DEADLINE_EXPIRY (R84): the step in flight has reached its deadline tick, and the accessor faults TIMEOUT.
(DESIGN CHOICE, log 22.) -/
def execStepDeadlineExpiry (a : Acc) (s : State) : Host.Outcome State Fault Refusal :=
  s.run fun s =>
    match (s.plant.acc a).step with
    | some f => if reached s.env.tick f.deadline then s.moving fun e x => x.fault e a .timeout else s
    | none => s

/-- TENURE_EXPIRY (R96): the timer stops and the expired mark is set; a holder with a claim waiting yields.
(DESIGN CHOICE, log 22.) -/
def execTenureExpiry (s : State) : Host.Outcome State Fault Refusal :=
  s.run fun s =>
    match s.plant.mou.tenureEnd with
    | some t =>
      if reached s.env.tick t then
        s.moving fun _ x => { x with mou.tenureEnd := none, mou.expired := true }
      else s
    | none => s

/-- A DEMOUNT leg that has waited 600 ticks (R92). -/
def Leg.promotable (now : Tick) (l : Leg) : Bool := l.cls = .demount && 600 ≤ elapsed l.joined now

/-- The first leg due is promoted and takes its place among the MOUNT legs by its age. (DESIGN CHOICE, log 50.) -/
def Plant.promote (e : Env) (x : Plant) : Plant :=
  match x.mou.queue.find? (fun l => l.promotable e.tick) with
  | some l =>
    ({ x with mou.queue := x.mou.queue.filter (fun g => g.id ≠ l.id) } : Plant).joinQueue e { l with cls := .mount }
  | none => x

/-- LEG_PROMOTION (R92): the expiry of one leg's timer; of several due, the first in queue order.
(DESIGN CHOICE, logs 22 and 50.) -/
def execLegPromotion (s : State) : Host.Outcome State Fault Refusal :=
  s.run (State.plantly fun e x => x.promote e)

end Sys2Proof.Machine
end

