-- ==== Sys2Proof/Machine/DriveReports.lean ====
section
/-!
DEFINITION. The drive controllers' reports (R121–R130), with READY's mount (R52) and UNLOADED's close (R71).
-/
namespace Sys2Proof.Machine

/-- Accounts and plant together, for the reports that close a mount. -/
def State.closing (f : Env → Acu → Plant → Acu × Plant) (s : State) : State :=
  { s with acu := (f s.env s.acu s.plant).1, plant := (f s.env s.acu s.plant).2 }

def Plant.strayDrive (d : DriveNo) (x : Plant) : Plant := x.updDrive d (·.strayed)

/-! ### READY (R52, R121) -/

/-- The volume of a mounted task leaves the scratch pool (R22, R52). -/
def Plant.unscratch (s : Serial) (x : Plant) : Plant := (x.updVol s ({ · with scratch := false })).leavePool s

/-- WATCH at a mount: the flag and the drive-owned prompt (R52). -/
def Plant.watchMount (e : Env) (s : Serial) (d : DriveNo) (x : Plant) : Plant :=
  match x.vol? s with
  | some v =>
    if v.watch then (x.setFlag e .watchSeen).ask e .watch { vol := some s, drive := some d } (.drive d) else x
  | none => x

/-- The task is MOUNTED and its order answered (R52). -/
def Plant.mounted (e : Env) (t : TaskNo) (d : DriveNo) (x : Plant) : Plant :=
  match x.task? t with
  | none => x
  | some k =>
    let s := k.serial.getD 0
    let y := x.updTask t ({ · with state := .mounted, wait := none, prompt := none, mountedTick := some e.tick,
                                   mountedMinute := some e.minute })
    let z := y.answer t (.mounted s d k.tags)
    (if k.kind = .mountScratch then z.unscratch s else z).watchMount e s d

/-- A READY that mounts (R121): a THREAD-FAIL prompt the task waits on is RESOLVED. -/
def Plant.readyMount (e : Env) (d : DriveNo) (t : TaskNo) (x : Plant) : Plant :=
  let y := x.updDrive d ({ · with state := .mounted, rethreadDone := false, unloadSeen := false })
  (y.withdrawOwn e t).mounted e t d

/-- A READY for a drive that is not FAULTED (R121). -/
def Plant.ready (e : Env) (d : DriveNo) (x : Plant) : Plant :=
  let r := x.drive d
  match r.state, r.bound with
  | .threading, some t =>
    if ((x.task? t).bind (·.pending)).isSome then x.strayDrive d else x.readyMount e d t
  | _, _ => x.strayDrive d

/-! ### ONLINE (R127, R128) -/

/-- A FAULTED drive takes its pre-fault state again (R128); a task whose leg waits for it goes on. (DEDUCED, log 31.) -/
def Plant.unfault (e : Env) (d : DriveNo) (x : Plant) : Plant :=
  let r := x.drive d
  let p := r.preFault.getD .empty
  let y := x.updDrive d fun r =>
    if p = .empty ∧ r.offlinePending then { r with state := .offline, preFault := none, offlinePending := false }
    else { r with state := p, preFault := none }
  match r.bound with
  | some t =>
    match y.task? t with
    | some k => if p = .reserved ∧ k.state = .waiting ∧ k.wait = some .driveFree then y.planMount e t else y
    | none => y
  | none => y

/-- ONLINE by the drive's state (R127). -/
def Plant.online (e : Env) (d : DriveNo) (x : Plant) : Plant :=
  let r := x.drive d
  match r.state with
  | .absent => x.strayDrive d
  | .offline => if r.cleaningDue then x.cleanDue e d else x.updDrive d ({ · with state := .empty })
  | .faulted => x.unfault e d
  | _ => x.updDrive d ({ · with offlinePending := false })

/-- A report of progress from a FAULTED drive is taken as an ONLINE followed by that report (R128). -/
def Plant.cameOut (e : Env) (d : DriveNo) (x : Plant) : Plant :=
  if (x.drive d).state = .faulted then x.unfault e d else x

/-! ### THREAD-FAIL and the thread failure (R122, R143) -/

/-- The volume's thread failures rise, and WORN is judged against the failure limit. -/
def Plant.countFailure (e : Env) (s : Serial) (d : DriveNo) (x : Plant) : Plant :=
  (x.updVol s fun v => { v with fails := satAdd 255 v.fails 1 }).judgeWorn e s d
    fun v => limitReached e.set.failLimit v.fails

/-- A thread failure passed to TCU: counted, and the prompt opened unless the task waits on it already (R122). -/
def Plant.threadFailure (e : Env) (d : DriveNo) (t : TaskNo) (x : Plant) : Plant :=
  match x.task? t with
  | none => x
  | some k =>
    let y := match k.serial with
      | some s => x.countFailure e s d
      | none => x
    if k.state = .opwait then y else y.taskPrompt e t .threadFail { vol := k.serial, drive := some d }

/-- THREAD-FAIL for a drive that is not FAULTED (R122): one automatic RETHREAD, then the prompt. -/
def Plant.threadFail (e : Env) (d : DriveNo) (x : Plant) : Plant :=
  let r := x.drive d
  match r.state, r.bound with
  | .threading, some t =>
    if r.rethreadDone then x.threadFailure e d t
    else if ((x.task? t).map (·.state)) = some TaskState.opwait then x.threadFailure e d t
    else ((x.driveCommand d .rethread).updDrive d ({ · with rethreadDone := true })).tag t .rethreaded
  | _, _ => x.strayDrive d

/-! ### UNLOADED (R71, R122, R124, R130) -/

/-- The task's demount is planned (R71). -/
def Plant.toDemount (e : Env) (t : TaskNo) (x : Plant) : Plant :=
  (x.updTask t ({ · with state := .demounting, wait := none, prompt := none })).planDemount e t

/-- UNLOADED for a drive that is not FAULTED. -/
def unloadedAt (e : Env) (d : DriveNo) (n : Counters) (a : Acu) (x : Plant) : Acu × Plant :=
  let r := x.drive d
  match r.state, r.bound with
  | .mounted, some t | .unloading, some t =>
    let y := x.updDrive d ({ · with state := .unloaded, unloadSeen := true })
    if ((x.task? t).bind (·.pending)).isSome then (a, (y.updDrive d (·.addFootage n.footage)).toDemount e t)
    else
      let c := closeMount e t d n a y
      (c.1, c.2.toDemount e t)
  | .threading, some t =>
    (a, (x.updDrive d fun q => { q.addFootage n.footage with unloadSeen := true }).threadFailure e d t)
  | .heldReel, _ =>
    if r.unloadSeen then (a, x.strayDrive d)
    else (a, (x.updDrive d fun q => { q.addFootage n.footage with unloadSeen := true }).requestRecovery (.drive d))
  | _, _ => (a, x.strayDrive d)

/-! ### The commands -/

/-- A drive report: discarded and counted nowhere while the library is STARTING (R223). (DEDUCED, log 29.) -/
def State.driveReport (f : State → State) (s : State) : State := if s.plant.mgu.lib = .starting then s else f s

/-- READY (R121, R128). -/
def execReady (d : DriveNo) (s : State) : Host.Outcome State Fault Refusal :=
  s.run (State.driveReport (State.moving fun e x => (x.cameOut e d).ready e d))

/-- THREAD-FAIL (R122, R128). -/
def execThreadFail (d : DriveNo) (s : State) : Host.Outcome State Fault Refusal :=
  s.run (State.driveReport (State.moving fun e x => (x.cameOut e d).threadFail e d))

/-- UNLOADED (R122, R124, R128, R130). -/
def execUnloaded (d : DriveNo) (footage : BitVec 16) (blocksRead blocksWritten : BitVec 24) (s : State) :
    Host.Outcome State Fault Refusal :=
  s.run (State.driveReport fun s =>
    let n : Counters := ⟨footage.toNat, blocksRead.toNat, blocksWritten.toNat⟩
    (s.closing fun e a x => unloadedAt e d n a (x.cameOut e d)).settled)

/-- ONLINE (R127, R128). -/
def execOnline (d : DriveNo) (s : State) : Host.Outcome State Fault Refusal :=
  s.run (State.driveReport (State.moving fun e x => x.online e d))

/-- An unbound drive is taken offline, its CLEAN prompt withdrawn; any other keeps its state with offline-pending set
(R127). -/
def Plant.offline (e : Env) (d : DriveNo) (x : Plant) : Plant :=
  let r := x.drive d
  let down (y : Plant) : Plant := y.updDrive d ({ · with state := .offline })
  match r.state with
  | .absent | .offline => x.strayDrive d
  | .empty => down x
  | .cleanDue =>
    if r.bound.isSome then x.updDrive d ({ · with offlinePending := true })
    else
      match x.pru.numberOf .clean (.drive d) with
      | some n => (down x).withdraw e n
      | none => down x
  | _ => x.updDrive d ({ · with offlinePending := true })

/-- OFFLINE (R127). -/
def execOffline (d : DriveNo) (s : State) : Host.Outcome State Fault Refusal :=
  s.run (State.driveReport (State.plantly fun e x => x.offline e d))

/-- CHECK (R128): the drive becomes FAULTED over its present state. -/
def Plant.checked (d : DriveNo) (x : Plant) : Plant :=
  match (x.drive d).state with
  | .faulted | .offline | .absent => x.strayDrive d
  | p => x.updDrive d ({ · with state := .faulted, preFault := some p })

/-- CHECK (R128). -/
def execCheck (d : DriveNo) (s : State) : Host.Outcome State Fault Refusal :=
  s.run (State.driveReport (State.plantly fun _ x => x.checked d))

end Sys2Proof.Machine
end

