-- ==== Sys2Proof/Machine/Keys.lean ====
section
/-!
DEFINITION. The operators' keys, the prompts' answers and expiries, and the room door (R48, R60, R63, R64, R72, R73,
R100, R106, R123, R126, R146, R151, R153, R154, R160–R167).
-/
namespace Sys2Proof.Machine

/-! ### Answers (R146, R147, R151) -/

/-- The three answers PRU delivers (R151). -/
inductive Answer where
  | done | cancelled | expired
deriving DecidableEq, Repr

/-- The operator's ending of a task: under CANCEL, or under the deadline's expiry. -/
def Answer.ending : Answer → Final
  | .expired => .operatorTimeout
  | _ => .operatorCancelled

/-- RING (R64). -/
def Plant.answerRing (e : Env) (t : TaskNo) (w : Answer) (x : Plant) : Plant :=
  match w with
  | .done =>
    match (x.task? t).bind (·.serial) with
    | some s => (x.updVol s ({ · with ring := .ringed })).planMount e t
    | none => x
  | _ => (x.updTask t ({ · with pending := some w.ending })).turnBack e t

/-- RING-PULL (R72). -/
def Plant.answerRingPull (e : Env) (t : TaskNo) (w : Answer) (x : Plant) : Plant :=
  match w with
  | .done =>
    match (x.task? t).bind (·.serial) with
    | some s => (x.updVol s ({ · with ring := .ringless })).planDemount e t
    | none => x
  | _ => (x.updTask t ({ · with ringKept := true })).planDemount e t

/-- The reel of a slot has been taken out: the slot is EMPTY, a visitor's entry goes, a resident is OUTSIDE (R9, R73). -/
def Plant.takenOut (n : Fin 8) (x : Plant) : Plant :=
  let y := match (x.service n).content with
    | some (.known s) =>
      match x.vol? s with
      | some v => if v.cls = VolClass.visitor then x.deleteVol s else x.moveVol s .outside
      | none => x
    | _ => x
  y.setService n Slot.clear

/-- REMOVE, and the FOREIGN prompt of a task (R73). -/
def Plant.answerRemoved (e : Env) (t : TaskNo) (slot : Option Location) (x : Plant) : Plant :=
  let y := match slot with
    | some (.service n) => x.takenOut n
    | _ => x
  y.endTask e t none

/-- THREAD-FAIL (R123). (DEDUCED, log 30.) -/
def Plant.answerThreadFail (e : Env) (t : TaskNo) (w : Answer) (x : Plant) : Plant :=
  match w with
  | .done =>
    let y := x.updTask t ({ · with state := .threading, wait := none, prompt := none })
    match y.boundDrive t with
    | some d => (y.driveCommand d .rethread).updDrive d ({ · with unloadSeen := false, rethreadDone := true })
    | none => y
  | .cancelled => (x.updTask t ({ · with pending := some .mechanismFailed })).abandonMount e t
  | .expired => (x.updTask t ({ · with pending := some .operatorTimeout })).abandonMount e t

/-- CLEAN (R126): cleaned or put off, the drive is EMPTY or RESERVED, and a waiting task goes on; on a FAULTED drive it
waits for the drive (R126). -/
def Plant.answerClean (e : Env) (d : DriveNo) (w : Answer) (x : Plant) : Plant :=
  let y := if w = .done then x.updDrive d ({ · with footage := 0 }) else x
  let r := y.drive d
  if r.eff ≠ .cleanDue then y
  else
    match r.bound with
    | none => y.updDrive d (·.emptied)
    | some t =>
      let z := y.updDrive d (·.setEff .reserved)
      match z.task? t with
      | some k =>
        if k.state = .waiting ∧ k.wait = some .clean then
          if r.state = .faulted then z.enterWaiting t .driveFree else z.planMount e t
        else z
      | none => z

/-- ALLOWANCE (R48). -/
def Plant.answerAllowance (e : Env) (t : TaskNo) (w : Answer) (x : Plant) : Plant :=
  match w with
  | .done =>
    let y := x.tag t .allowanceApproved
    match (y.task? t).bind (·.drive) with
    | some d => y.startMount e t d
    | none => y
  | _ => x.endTask e t (some .allowanceRefused)

/-- The FOREIGN prompt of an audit reading (R17): the cell becomes EMPTY. -/
def Plant.answerForeignCell (c : Option CellNo) (x : Plant) : Plant :=
  match c with
  | some c => if (x.cell c).occ = .foreign then x.setOcc c .empty else x
  | none => x

/-- The accepted DONE of an ACCESSOR-FAULT prompt (R106): the accessor is recovered and its tasks wait for it. -/
def Plant.startRecovery (e : Env) (a : Acc) (n : Nat) (x : Plant) : Plant :=
  let y := x.taskList.foldl (fun y (p : TaskNo × Task) =>
    if p.2.prompt = some n then (y.updTask p.1 ({ · with prompt := none })).enterWaiting p.1 .zone else y) x
  if (y.acc a).state = .faulted then y.recover e a else y

/-- The owner's action on an answer (R146, R147). -/
def Plant.deliver (e : Env) (p : Prompt) (w : Answer) (x : Plant) : Plant :=
  match p.kind, p.owner with
  | .fetch, .task t | .locate, .task t => if w = .done then x else x.endTask e t (some w.ending)
  | .ring, .task t => x.answerRing e t w
  | .ringPull, .task t => x.answerRingPull e t w
  | .remove, .task t => x.answerRemoved e t p.params.slot
  | .foreign, .task t => x.answerRemoved e t p.params.slot
  | .threadFail, .task t => x.answerThreadFail e t w
  | .allowance, .task t => x.answerAllowance e t w
  | .clean, .drive d => x.answerClean e d w
  | .foreign, .acc _ => x.answerForeignCell p.params.cell
  | .accessorFault, .acc a => x.startRecovery e a p.number
  | _, _ => x

/-- A prompt closes by an answer that its owner acts on (R151). -/
def Plant.close (e : Env) (p : Prompt) (w : Answer) (x : Plant) : Plant :=
  x.closing e p.number fun y => y.deliver e p w

/-- A task whose FETCH or LOCATE prompt claims an entry slot: its volume is there, it takes FETCHED, and it plans from
there (R20, R63). -/
def Plant.claimed (e : Env) (t : TaskNo) (n : Fin 8) (s : Serial) (x : Plant) : Plant :=
  let before := x.volLoc s
  let y := (x.setEntry n (Slot.reserve t)).moveVol s (.entry n)
  ((y.updTask t ({ · with prompt := none, preClaim := before })).tag t .fetched).planAnew e t

/-- The claim of an entry slot by a DONE on a FETCH or LOCATE prompt, which closes it (R20, R63, R151). -/
def Plant.claimEntry (e : Env) (t : TaskNo) (n : Fin 8) (p : Prompt) (x : Plant) : Plant :=
  match (x.task? t).bind (·.serial) with
  | none => x
  | some s => x.closing e p.number fun y => y.claimed e t n s

/-! ### Keys (R160–R165) -/

/-- Keys other than switch reports are taken in RUNNING and RESTARTING (R160, R222). -/
def LibState.takesKeys : LibState → Bool
  | .running | .restarting => true
  | _ => false

/-- An answering key (R160): a BEEP where none is taken, where it names 0 or no open prompt; else it acts on the prompt
it names. -/
def State.answering (k : Keyed) (f : Prompt → State → State) (s : State) : State :=
  let beep : State := s.plantly fun _ x => x.beep k.console
  if !s.plant.mgu.lib.takesKeys then beep
  else
    match s.plant.pru.find? k.prompt.toNat with
    | some p => f p s
    | none => beep

/-- The number keyed, none where FFh is sent (R231). -/
def keyedNumber (k : Keyed) : Option Nat := if k.number = 0xFF then none else some k.number.toNat

/-- A number above 99 was keyed (R160). -/
def keyedTooHigh (k : Keyed) : Bool :=
  match keyedNumber k with
  | some n => 99 < n
  | none => false

/-- The slot a number keyed names, 0–7 (R161, R164). -/
def keyedSlot (k : Keyed) : Option (Fin 8) :=
  match keyedNumber k with
  | some n => if h : n < 8 then some ⟨n, h⟩ else none
  | none => none

/-- A console's key switch (R165). -/
def Env.switch (c : Console) (e : Env) : KeySwitch :=
  match c with
  | .one => e.sw1
  | .two => e.sw2

/-- A DONE naming an open prompt (R161). -/
def State.done (k : Keyed) (p : Prompt) (s : State) : State :=
  let beep : State := s.plantly fun _ x => x.beep k.console
  if keyedTooHigh k then beep
  else
    match p.kind, p.owner with
    | .fetch, .task t | .locate, .task t =>
      match keyedSlot k with
      | some n =>
        if (s.plant.entry n).state = SlotState.empty then s.moving fun e x => x.claimEntry e t n p else beep
      | none => beep
    | .accessorFault, _ =>
      if s.env.switch k.console = .maintain then s.moving fun e x => x.close e p .done else beep
    | _, _ => s.moving fun e x => x.close e p .done

/-- DONE (R160, R161). -/
def execDoneKey (k : Keyed) (s : State) : Host.Outcome State Fault Refusal := s.run (State.answering k (State.done k))

/-- The kinds whose CANCEL is refused (R162). -/
def PromptKind.refusesCancel : PromptKind → Bool
  | .remove | .foreign | .accessorFault => true
  | _ => false

/-- CANCEL (R160, R162). -/
def execCancelKey (k : Keyed) (s : State) : Host.Outcome State Fault Refusal :=
  s.run (State.answering k fun p s =>
    if p.kind.refusesCancel then s.plantly fun _ x => x.beep k.console
    else s.moving fun e x => x.close e p .cancelled)

/-- A console joins a prompt's skipped-at set (R163). -/
def Prompt.skipAt (c : Console) (p : Prompt) : Prompt :=
  match c with
  | .one => { p with skip1 := true }
  | .two => { p with skip2 := true }

/-- Changing an open prompt in place. -/
def Plant.updPrompt (n : Nat) (f : Prompt → Prompt) (x : Plant) : Plant :=
  { x with pru.table := x.pru.table.map fun p => if p.number = n then f p else p }

/-- SKIP (R160, R163). -/
def execSkipKey (k : Keyed) (s : State) : Host.Outcome State Fault Refusal :=
  s.run (State.answering k fun p s => s.plantly fun e x => (x.updPrompt p.number (·.skipAt k.console)).judgeViews e)

/-- A key that names no prompt, taken only in RUNNING and RESTARTING (R160). -/
def State.keyed (c : Console) (f : State → State) (s : State) : State :=
  if s.plant.mgu.lib.takesKeys then f s else s.plantly fun _ x => x.beep c

/-- The hold sources have changed: the HOLD insert may have, and the accessors stop or go on (R100, R101, R155). -/
def State.holdChanged (s : State) : State := (s.plantly fun e x => x.judgeViews e).settled

/-- HOLD (R100, R164). -/
def execHoldKey (k : Keyed) (s : State) : Host.Outcome State Fault Refusal :=
  s.run (State.keyed k.console fun s =>
    match k.console with
    | .one => State.holdChanged { s with env.hold1 := !s.env.hold1 }
    | .two => State.holdChanged { s with env.hold2 := !s.env.hold2 })

/-- ENTER (R20, R44, R74, R164). -/
def execEnterKey (k : Keyed) (s : State) : Host.Outcome State Fault Refusal :=
  s.run (State.keyed k.console fun s =>
    let beep : State := s.plantly fun _ x => x.beep k.console
    match keyedSlot k, s.plant.freeRecord with
    | some n, some t =>
      if (s.plant.entry n).state = SlotState.empty then s.moving fun e x => x.enterTask e t n else beep
    | _, _ => beep)

/-- A key switch takes a position (R165). -/
def State.switched (c : Console) (p : KeySwitch) (s : State) : State :=
  match c with
  | .one => { s with env.sw1 := p }
  | .two => { s with env.sw2 := p }

/-- The RUN switch report (R165). -/
def execSwitchRun (k : Keyed) (s : State) : Host.Outcome State Fault Refusal := s.run (State.switched k.console .run)

/-- The MAINTAIN switch report (R165). -/
def execSwitchMaintain (k : Keyed) (s : State) : Host.Outcome State Fault Refusal :=
  s.run (State.switched k.console .maintain)

/-! ### Expiries (R153, R154) -/

/-- An escalation (R153). (DEDUCED, log 15.) -/
def Prompt.escalate (p : Prompt) : Prompt :=
  { p with urgency := min 3 (p.urgency + 1), skip1 := false, skip2 := false,
           nextEsc := p.nextEsc.map fun t => t + ticks p.escEvery }

/-- PROMPT_ESCALATION (R153). (DEDUCED, log 15; DESIGN CHOICE, log 22.) -/
def execPromptEscalation (n : BitVec 16) (s : State) : Host.Outcome State Fault Refusal :=
  s.run fun s =>
    match s.plant.pru.find? n.toNat with
    | some p =>
      match p.nextEsc with
      | some t =>
        if reached s.env.tick t then s.plantly fun e x => (x.updPrompt n.toNat Prompt.escalate).judgeViews e else s
      | none => s
    | none => s

/-- PROMPT_DEADLINE_EXPIRY (R154). (DESIGN CHOICE, log 22.) -/
def execPromptDeadlineExpiry (n : BitVec 16) (s : State) : Host.Outcome State Fault Refusal :=
  s.run fun s =>
    match s.plant.pru.find? n.toNat with
    | some p =>
      match p.deadline with
      | some t => if reached s.env.tick t then s.moving fun e x => x.close e p .expired else s
      | none => s
    | none => s

/-! ### The room door (R100, R198) -/

/-- DOOR OPEN (R100). -/
def execDoorOpen (s : State) : Host.Outcome State Fault Refusal :=
  s.run fun s => if s.env.door then s else State.holdChanged { s with env.door := true }

/-- A door close triggers the lists in DOOR mode, list 1 first; in STARTING none (R199). -/
def Plant.doorTriggers (e : Env) (x : Plant) : Plant :=
  if x.mgu.lib = .starting then x
  else
    let y := if x.adu.list1.mode = .door then x.trigger e .one else x
    if y.adu.list2.mode = .door then y.trigger e .two else y

/-- DOOR CLOSED (R100): a door close when DOOR was set. -/
def execDoorClosed (s : State) : Host.Outcome State Fault Refusal :=
  s.run fun s =>
    if s.env.door then State.holdChanged (({ s with env.door := false } : State).plantly fun e x => x.doorTriggers e)
    else s

end Sys2Proof.Machine
end

