-- ==== Sys2Proof/Machine/MgmtVolumes.lean ====
section
/-!
DEFINITION. Management of the library tables: LOAD VOLUME, DELETE VOLUME, SET VOLUME FLAGS and the reads of volumes,
cells, slots and the pool; EJECT (R10–R13, R24, R75).
-/
namespace Sys2Proof.Machine

/-! ### LOAD VOLUME (R10, R11) -/

/-- The home field: a cell number, FFFEh for CHOOSE, FFFFh for absent (R234). -/
inductive HomeField where
  | absent | choose | cell (c : CellNo)
deriving DecidableEq, Repr

def homeOf (b : BitVec 16) : HomeField := if b = 0xFFFF then .absent else if b = 0xFFFE then .choose else .cell b.toNat

/-- The location field of LOAD VOLUME: CELL, OUTSIDE or UNKNOWN (R10); the number beside OUTSIDE or UNKNOWN is not judged.
(DEDUCED, log 28.) -/
def loadLocation (kind : Byte) (n : BitVec 16) : Option Location :=
  if kind = 0 then some (.cell n.toNat) else if kind = 6 then some .outside else if kind = 7 then some .unknown else none

/-- The fields of LOAD VOLUME that hold a value (R10 check 1). -/
structure VolumeLoad where
  serial : Serial
  cls : VolClass
  home : HomeField
  loc : Location
  ring : Ring
deriving DecidableEq, Repr

def VolumeLoad.of (f : VolumeFields) : Option VolumeLoad :=
  match serialOf f.serial, volClassOf f.cls, ringOf f.ring, loadLocation f.locKind f.locNum with
  | some s, some c, some r, some l => some { serial := s, cls := c, home := homeOf f.home, loc := l, ring := r }
  | _, _, _, _ => none

/-- A location LOAD VOLUME may replace (R10 check 3). -/
def Location.loadable : Location → Bool
  | .cell _ | .outside | .unknown => true
  | _ => false

/-- Check 5: the location's cell. -/
def Plant.loadCell (l : VolumeLoad) (x : Plant) : Option Reply :=
  match l.loc with
  | .cell c =>
    if !validCell c then some .badValue
    else
      match (x.cell c).occ with
      | .reserved _ _ => some .occupied
      | .occupied v => if v = l.serial then none else some .occupied
      | _ => none
  | _ => none

/-- Checks 7 and 8: the home a RESIDENT takes, or the reply that refuses it. -/
def Plant.loadHome (l : VolumeLoad) (x : Plant) : Except Reply CellNo :=
  let chosen : Except Reply CellNo :=
    match x.freeCell with
    | some c => .ok c
    | none => .error .noCell
  let otherHome (c : CellNo) : Bool :=
    match (x.cell c).homeOf with
    | some v => v ≠ l.serial
    | none => false
  match l.home with
  | .cell c => if !validCell c then .error .badValue else if otherHome c then .error .occupied else .ok c
  | .choose => chosen
  | .absent =>
    match l.loc with
    | .cell c => if otherHome c then chosen else .ok c
    | _ => chosen

/-- Checks 2 to 8 of R10: the home of a RESIDENT, none for a VISITOR. -/
def Plant.loadChecks (l : VolumeLoad) (x : Plant) : Except Reply (Option CellNo) :=
  let held := x.vol? l.serial
  if held.any (fun v => v.bound.isSome) then .error .bound
  else if held.any (fun v => !v.loc.loadable) then .error .location
  else if held.isNone && x.tableFull then .error .tableFull
  else
    match x.loadCell l with
    | some r => .error r
    | none =>
      match l.cls with
      | .visitor =>
        if l.home ≠ .absent || (match l.loc with | .cell _ => true | _ => false) then .error .badValue else .ok none
      | .resident => (x.loadHome l).map some

/-- Joining or leaving the pool as SCRATCH is given (R11, R22). -/
def Plant.followScratch (s : Serial) (scratch : Bool) (x : Plant) : Plant :=
  if scratch then x.joinPool s else x.leavePool s

/-- LOAD VOLUME applied (R11). (DEDUCED, logs 9 and 47.) -/
def Plant.loadVolume (e : Env) (f : VolumeFields) (l : VolumeLoad) (home : Option CellNo) (x : Plant) : Plant :=
  let held := x.vol? l.serial
  let foreign : Option CellNo :=
    match l.loc with
    | .cell c => if (x.cell c).occ = .foreign then some c else none
    | _ => none
  let x := match held.bind fun v : Volume => v.home with
    | some c => x.setHomeOf c none
    | none => x
  let x := match home with
    | some c => x.setHomeOf c (some l.serial)
    | none => x
  let v : Volume :=
    { serial := l.serial, cls := l.cls, home := home, loc := (held.map fun v : Volume => v.loc).getD .outside,
      ring := l.ring, scratch := f.flags.getLsbD 0, watch := f.flags.getLsbD 1, ringPull := f.flags.getLsbD 2,
      misfiled := false, worn := false, mounts := f.mounts.toNat, footage := f.footage.toNat, fails := f.fails.toNat,
      refilePending := false, bound := none }
  let x := ((x.putVol v).moveVol l.serial l.loc).followScratch l.serial v.scratch
  let x := match foreign with
    | some c => x.resolveForeign e c
    | none => x
  x.refileRequest e l.serial

/-- LOAD VOLUME (R10, R11). (DESIGN CHOICE, log 51.) -/
def execLoadVolume (h : Hdr) (f : VolumeFields) (s : State) : Host.Outcome State Fault Refusal :=
  s.mgmt h fun s =>
    match VolumeLoad.of f with
    | none => s.say h .badValue .nothing
    | some l =>
      match s.plant.loadChecks l with
      | .error r => s.say h r .nothing
      | .ok home => ((s.plantly fun e x => x.loadVolume e f l home).accept h).settled

/-! ### DELETE VOLUME, SET VOLUME FLAGS (R12, R13) -/

/-- DELETE VOLUME (R12). -/
def execDeleteVolume (h : Hdr) (serial : List Byte) (s : State) : Host.Outcome State Fault Refusal :=
  s.mgmt h fun s =>
    match serialOf serial with
    | none => s.say h .badValue .nothing
    | some v =>
      match s.plant.vol? v with
      | none => s.say h .notFound .nothing
      | some r =>
        if r.bound.isSome then s.say h .bound .nothing
        else if s.env.fenced v then s.say h .fenced .nothing
        else if r.loc ≠ .outside ∧ r.loc ≠ .unknown then s.say h .location .nothing
        else (s.plantly fun _ x => x.deleteVol v).accept h

/-- One flag named to be set, to be cleared, or in neither set. -/
def markFlag (set clear old : Bool) : Bool := if set then true else if clear then false else old

/-- The flags of a volume changed (R13). (DEDUCED, log 9.) -/
def Volume.mark (set clear : Byte) (v : Volume) : Volume :=
  { v with scratch := markFlag (set.getLsbD 0) (clear.getLsbD 0) v.scratch,
           watch := markFlag (set.getLsbD 1) (clear.getLsbD 1) v.watch,
           ringPull := markFlag (set.getLsbD 2) (clear.getLsbD 2) v.ringPull }

/-- SET VOLUME FLAGS (R13). (DEDUCED, log 9.) -/
def execSetVolumeFlags (h : Hdr) (serial : List Byte) (setFlags clearFlags : Byte) (s : State) :
    Host.Outcome State Fault Refusal :=
  s.mgmt h fun s =>
    match serialOf serial with
    | none => s.say h .badValue .nothing
    | some v =>
      if setFlags &&& clearFlags &&& 7 ≠ 0 then s.say h .badValue .nothing
      else
        match s.plant.vol? v with
        | none => s.say h .notFound .nothing
        | some r =>
          if r.bound.isSome then s.say h .bound .nothing
          else
            (s.plantly fun _ x =>
              (x.updVol v (·.mark setFlags clearFlags)).followScratch v (r.mark setFlags clearFlags).scratch).accept h

/-! ### Reads (R24) -/

/-- READ VOLUME (R24). -/
def execReadVolume (h : Hdr) (serial : List Byte) (s : State) : Host.Outcome State Fault Refusal :=
  s.mgmt h fun s =>
    match serialOf serial with
    | none => s.say h .badValue .nothing
    | some v =>
      match s.plant.vol? v with
      | none => s.say h .notFound .nothing
      | some r => s.show h (.volume r (s.env.fenced v))

/-- The entry of the least serial above the one given, or the least of all (R24). -/
def Plant.nextVolume (after : Option Serial) (x : Plant) : Option Volume :=
  x.ltu.volumes.find? fun v =>
    match after with
    | some s => s < v.serial
    | none => true

/-- The operand of READ NEXT VOLUME: a serial, or six FFh bytes for FIRST (R234). -/
def nextOf (bs : List Byte) : Option (Option Serial) :=
  if bs = List.replicate 6 0xFF#8 then some none else (serialOf bs).map some

/-- READ NEXT VOLUME (R24). -/
def execReadNextVolume (h : Hdr) (serial : List Byte) (s : State) : Host.Outcome State Fault Refusal :=
  s.mgmt h fun s =>
    match nextOf serial with
    | none => s.say h .badValue .nothing
    | some after =>
      match s.plant.nextVolume after with
      | none => s.say h .ends .nothing
      | some r => s.show h (.volume r (s.env.fenced r.serial))

/-- READ CELL (R1, R24). -/
def execReadCell (h : Hdr) (cell : BitVec 16) (s : State) : Host.Outcome State Fault Refusal :=
  s.mgmt h fun s =>
    if validCell cell.toNat then s.show h (.cell (s.plant.cell cell.toNat)) else s.say h .badValue .nothing

/-- A slot named by rack and number (R1, R234). -/
def Plant.slotNamed (rack slot : Byte) (x : Plant) : Option Slot :=
  if rack = 0 then (indexOf 8 slot).map fun n => x.entry n
  else if rack = 1 then (indexOf 8 slot).map fun n => x.service n
  else if rack = 2 then (indexOf 4 slot).map fun n => x.handoff n
  else none

/-- READ SLOT (R1, R24). -/
def execReadSlot (h : Hdr) (rack slot : Byte) (s : State) : Host.Outcome State Fault Refusal :=
  s.mgmt h fun s =>
    match s.plant.slotNamed rack slot with
    | some r => s.show h (.slot r)
    | none => s.say h .badValue .nothing

/-- READ POOL (R24). -/
def execReadPool (h : Hdr) (index : BitVec 16) (s : State) : Host.Outcome State Fault Refusal :=
  s.mgmt h fun s =>
    match s.plant.ltu.pool[index.toNat]? with
    | some v => s.show h (.pool v s.plant.ltu.pool.length)
    | none => s.say h .ends (.length 2 s.plant.ltu.pool.length)

/-! ### EJECT (R75) -/

/-- EJECT (R75, R217): NOT READY in LOADING, whatever it carries. (DESIGN CHOICE, log 51.) -/
def execEject (h : Hdr) (serial : List Byte) (s : State) : Host.Outcome State Fault Refusal :=
  s.mgmt { h with sized := true } fun s =>
    if s.plant.mgu.lib = .loading then s.say h .notReady .nothing
    else
      match (if h.sized then serialOf serial else none) with
      | none => s.say h .badValue .nothing
      | some v =>
        match s.plant.vol? v with
        | none => s.say h .notFound .nothing
        | some r =>
          if r.bound.isSome then s.say h .bound .nothing
          else if !(match r.loc with | .cell _ => true | _ => false) then s.say h .location .nothing
          else
            match s.plant.freeRecord with
            | none => s.say h .busy .nothing
            | some t => s.moving fun e x => x.ejectTask e h t v

end Sys2Proof.Machine
end

