-- ==== Sys2Proof/Machine/MgmtFence.lean ====
section
/-!
DEFINITION. Management of the fence: FENCE WRITE, FENCE PERSIST with its completion, READ FENCE (R134–R141), and the
wear limits (R142).
-/
namespace Sys2Proof.Machine

/-- The parts a fence command carries (R137). -/
structure FenceParts where
  range : Option (Fin 8 × FenceRange)
  invert : Option Bool
  mode : Option LockMode
deriving DecidableEq, Repr

/-- The range part: not carried when all its bytes are FFh; none when a field of it is out of range (R136 check 1),
an enabled byte other than 00h or 01h among them. (DEDUCED, log 52.) -/
def rangePart (f : FenceFields) : Option (Option (Fin 8 × FenceRange)) :=
  if f.index = 0xFF ∧ f.first = List.replicate 6 0xFF#8 ∧ f.last = List.replicate 6 0xFF#8 ∧ f.enabled = 0xFF then some none
  else
    match indexOf 8 f.index, serialOf f.first, serialOf f.last, yesOf f.enabled with
    | some i, some a, some b, some n =>
      if a ≤ b then some (some (i, { first := a, last := b, enabled := n })) else none
    | _, _, _, _ => none

/-- The INVERT part. -/
def invertPart (b : Byte) : Option (Option Bool) := if b = 0xFF then some none else (boolOf b).map some

/-- The mode part. -/
def modePart (b : Byte) : Option (Option LockMode) := if b = 0xFF then some none else (lockModeOf b).map some

/-- The parts of a fence command, none when a field is out of range. -/
def FenceParts.of (f : FenceFields) : Option FenceParts :=
  match rangePart f, invertPart f.invert, modePart f.mode with
  | some r, some i, some m => some { range := r, invert := i, mode := m }
  | _, _, _ => none

/-- The parts a FENCE WRITE may ask for (R136). -/
def FenceParts.writable (p : FenceParts) : Bool :=
  (p.range.isSome || p.invert.isSome || p.mode.isSome) && p.mode ≠ some .permanent

/-- The parts a FENCE PERSIST may ask for (R136). -/
def FenceParts.persistable (p : FenceParts) : Bool := p.mode ≠ some .held

/-- The lock refuses a write (R136 check 2). -/
def Env.locked (e : Env) : Bool :=
  match e.fence.working.mode with
  | .unlocked => false
  | .keyed => !(e.sw1 = .maintain || e.sw2 = .maintain)
  | .held | .permanent => true

/-- Parts applied to a copy (R137). -/
def FenceCopy.apply (p : FenceParts) (c : FenceCopy) : FenceCopy where
  ranges := match p.range with
    | some (i, r) => vset c.ranges i r
    | none => c.ranges
  invert := p.invert.getD c.invert
  mode := p.mode.getD c.mode

/-- The checks of R136: the reply that refuses a fence command, if one does. -/
def Env.fenceRefusal (ok : FenceParts → Bool) (f : FenceFields) (e : Env) : Except Reply FenceParts :=
  match FenceParts.of f with
  | none => .error .badValue
  | some p =>
    if !ok p then .error .badValue
    else if e.locked then .error .locked
    else if e.fence.persist.isSome then .error .busy
    else .ok p

/-- FENCE WRITE (R136, R137). -/
def execFenceWrite (h : Hdr) (f : FenceFields) (s : State) : Host.Outcome State Fault Refusal :=
  s.mgmt h fun s =>
    match s.env.fenceRefusal FenceParts.writable f with
    | .error r => s.say h r .nothing
    | .ok p => ({ s with env.fence.working := s.env.fence.working.apply p } : State).accept h

/-- A persist begins: its image is the whole working copy as it then stands, to be stored 30 ticks on (R138). -/
def Fence.persisting (now : Tick) (p : FenceParts) (f : Fence) : Fence :=
  { f with working := f.working.apply p, persist := some { done := now + ticks 30, image := f.working.apply p } }

/-- FENCE PERSIST (R136, R138, R139). -/
def execFencePersist (h : Hdr) (f : FenceFields) (s : State) : Host.Outcome State Fault Refusal :=
  s.mgmt h fun s =>
    match s.env.fenceRefusal FenceParts.persistable f with
    | .error r => s.say h r .nothing
    | .ok p => ({ s with env.fence := s.env.fence.persisting s.env.tick p } : State).accept h

/-- The persist in flight completes: the stored copy is replaced whole (R138). -/
def Fence.stored' (f : Fence) (i : FenceCopy) : Fence := { f with stored := i, persist := none }

/-- PERSIST_COMPLETION (R138). (DESIGN CHOICE, log 22.) -/
def execPersistCompletion (s : State) : Host.Outcome State Fault Refusal :=
  s.run fun s =>
    match s.env.fence.persist with
    | some p =>
      if reached s.env.tick p.done then
        ({ s with env.fence := s.env.fence.stored' p.image } : State).plantly fun e x => x.setFlag e .fenceStored
      else s
    | none => s

/-- The ticks from now to an expiry, 0 when it has been reached. -/
def remaining (now t : Tick) : Nat := if reached now t then 0 else elapsed now t

/-- READ FENCE (R140). -/
def execReadFence (h : Hdr) (s : State) : Host.Outcome State Fault Refusal :=
  s.mgmt h fun s =>
    s.show h (.fence s.env.fence.working (s.env.fence.persist.map fun p => remaining s.env.tick p.done))

/-- SET WEAR LIMITS (R142). -/
def execSetWearLimits (h : Hdr) (mountLimit : BitVec 16) (failLimit : Byte) (s : State) :
    Host.Outcome State Fault Refusal :=
  s.mgmt h (State.setting h fun t => { t with mountLimit := mountLimit.toNat, failLimit := failLimit.toNat })

/-- READ WEAR LIMITS (R142). -/
def execReadWearLimits (h : Hdr) (s : State) : Host.Outcome State Fault Refusal :=
  s.mgmt h fun s => s.show h (.wearLimits s.env.set.mountLimit s.env.set.failLimit)

end Sys2Proof.Machine
end

