-- ==== Sys2Proof/Machine/MgmtTables.lean ====
section
/-!
DEFINITION. Management of the pace, the task table, the accessors, the drives and the Prompt Unit (R32, R110, R111, R117,
R118, R147, R155, R156, R168, R218).
-/
namespace Sys2Proof.Machine

/-- A body that asks for the value of an operand: BAD VALUE where it has none. -/
def State.given {α : Type} (h : Hdr) (o : Option α) (f : α → State → State) (s : State) : State :=
  match o with
  | some a => f a s
  | none => s.say h .badValue .nothing

/-! ### Pace and tenure (R32, R110) -/

/-- SET PACE (R32): answered, then every path's pace state judged afresh, path 0 first. (DESIGN CHOICE, log 51.) -/
def execSetPace (h : Hdr) (letter n hyst : Byte) (s : State) : Host.Outcome State Fault Refusal :=
  s.mgmt h (State.given h (paceSetOf letter n hyst) fun p s => (s.setting h fun t => { t with pace := p }).judgeAllPaces)

/-- SET TENURE (R110): clamped to 50–600. -/
def execSetTenure (h : Hdr) (tenure : BitVec 16) (s : State) : Host.Outcome State Fault Refusal :=
  s.mgmt h (State.setting h fun t => { t with tenure := clamp 50 600 tenure.toNat })

/-! ### READ TASK (R218) -/

/-- The outstanding legs of a task: those queued, and those in hand (R50). -/
def Plant.legsOf (t : TaskNo) (x : Plant) : List Nat :=
  let mine (l : Leg) : Bool := l.owner = .task t || l.owner = .found t true
  ((x.mou.queue ++ (x.acc .A).leg.toList ++ (x.acc .B).leg.toList).filter mine).map fun l : Leg => l.id

/-- What READ TASK shows of a record (R50, R218). -/
def Plant.showTask (t : TaskNo) (x : Plant) : Contents :=
  match x.task? t with
  | some k => .task k (x.legsOf t)
  | none => .free

/-- READ TASK (R218). -/
def execReadTask (h : Hdr) (record : Byte) (s : State) : Host.Outcome State Fault Refusal :=
  s.mgmt h (State.given h (indexOf 48 record) fun t s => s.show h (s.plant.showTask t))

/-! ### READ ACCESSOR, READ LEG (R111) -/

/-- What READ ACCESSOR shows (R81, R111). -/
def State.showAccessor (a : Acc) (s : State) : Contents :=
  let m := s.plant.mou
  .accessor (s.plant.acc a) (m.holder = some a) (m.claimant = some a) m.holder m.claimant
    (m.tenureEnd.map fun t => remaining s.env.tick t) m.expired s.env.hold1 s.env.hold2 s.env.door m.queue.length

/-- READ ACCESSOR (R111). -/
def execReadAccessor (h : Hdr) (acc : Byte) (s : State) : Host.Outcome State Fault Refusal :=
  s.mgmt h (State.given h (accOf acc) fun a s => s.show h (s.showAccessor a))

/-- READ LEG (R111). -/
def execReadLeg (h : Hdr) (index : Byte) (s : State) : Host.Outcome State Fault Refusal :=
  s.mgmt h fun s =>
    match s.plant.mou.queue[index.toNat]? with
    | some l => s.show h (.leg l)
    | none => s.say h .ends (.length 1 s.plant.mou.queue.length)

/-! ### LOAD DRIVE, READ DRIVE (R117, R118) -/

/-- The fields of LOAD DRIVE that hold a value (R117 check 1). -/
structure DriveLoad where
  drive : DriveNo
  present : Bool
  mask : BitVec 4
  clear : Bool
deriving DecidableEq, Repr

/-- DEDUCED, log 7. -/
def driveLoadOf (drive present mask clear : Byte) : Option DriveLoad :=
  match driveOf drive, yesOf present, boolOf clear with
  | some d, some p, some c =>
    if mask.toNat < 16 then some { drive := d, present := p, mask := mask.setWidth 4, clear := c } else none
  | _, _, _ => none

/-- The states in which LOAD DRIVE is taken (R117 check 2). -/
def DriveState.loadable : DriveState → Bool
  | .offline | .empty | .absent => true
  | _ => false

/-- LOAD DRIVE applied (R117). -/
def Drive.load (l : DriveLoad) (interval : Nat) (r : Drive) : Drive :=
  let y := { r with present := l.present, mask := l.mask, interval := interval,
                    footage := if l.clear then 0 else r.footage }
  if l.present then { y with state := if r.state = .absent then .empty else r.state }
  else { y with state := .absent, offlinePending := false, unloadSeen := false, rethreadDone := false }

/-- LOAD DRIVE (R117). -/
def execLoadDrive (h : Hdr) (drive present mask : Byte) (interval : BitVec 32) (clear : Byte) (s : State) :
    Host.Outcome State Fault Refusal :=
  s.mgmt h (State.given h (driveLoadOf drive present mask clear) fun l s =>
    if (s.plant.drive l.drive).state.loadable then
      (s.plantly fun _ x => x.updDrive l.drive (·.load l interval.toNat)).accept h
    else s.say h .driveBusy .nothing)

/-- READ DRIVE (R118). -/
def execReadDrive (h : Hdr) (drive : Byte) (s : State) : Host.Outcome State Fault Refusal :=
  s.mgmt h (State.given h (driveOf drive) fun d s => s.show h (.drive (s.plant.drive d)))

/-! ### SET PROMPT TIMES, READ PROMPT TIMES (R147, R168) -/

/-- The prompt times a kind may take, none where the command is refused (R147). -/
def promptTimesOf (kind : Fin 14) (deadline escalation urgency : Nat) : Option PromptTimes :=
  if 3 < urgency then none
  else if deadline ≠ 0 ∧ !PromptKind.deadlineLoadable kind then none
  else some { deadline := deadline, escalation := escalation, urgency := urgency }

/-- SET PROMPT TIMES (R147). -/
def execSetPromptTimes (h : Hdr) (kind : Byte) (deadline escalation : BitVec 16) (urgency : Byte) (s : State) :
    Host.Outcome State Fault Refusal :=
  s.mgmt h (State.given h (indexOf 14 kind) fun k =>
    State.given h (promptTimesOf k deadline.toNat escalation.toNat urgency.toNat) fun v =>
      State.setting h fun t => { t with times := vset t.times k v })

/-- READ PROMPT TIMES (R168). -/
def execReadPromptTimes (h : Hdr) (kind : Byte) (s : State) : Host.Outcome State Fault Refusal :=
  s.mgmt h (State.given h (indexOf 14 kind) fun k s => s.show h (.times (s.env.set.times.get k)))

/-! ### Templates (R155, R156, R168) -/

/-- The character set of literal text (R155). -/
def templateChar (b : Byte) : Bool :=
  let n := b.toNat
  n = 0x20 || (0x41 ≤ n && n ≤ 0x5A) || (0x30 ≤ n && n ≤ 0x39) || n = 0x2E || n = 0x2C || n = 0x3A || n = 0x2D
    || n = 0x2F || n = 0x28 || n = 0x29 || n = 0x23

/-- The insert a byte names (R233), with its width (R155). -/
def insertOf (b : Byte) : Option (Insert × Nat) :=
  if b = 0x80 then some (.vol, 6) else if b = 0x81 then some (.ser2, 6) else if b = 0x82 then some (.drv, 2)
  else if b = 0x83 then some (.slot, 2) else if b = 0x84 then some (.cell, 4) else if b = 0x85 then some (.acct, 3)
  else if b = 0x86 then some (.acc, 1) else if b = 0x87 then some (.code, 12) else if b = 0x88 then some (.opens, 3)
  else if b = 0x89 then some (.hold, 4) else none

/-- A literal character before a line: adjacent characters form one segment (R233). -/
def consChar (b : Byte) : List Segment → List Segment
  | .lit t :: rest => .lit (b :: t) :: rest
  | l => .lit [b] :: l

/-- The segments a line's bytes give, none where a byte is neither a character nor an insert code. -/
def segmentsOf : List Byte → Option (List Segment)
  | [] => some []
  | b :: bs =>
    match segmentsOf bs with
    | none => none
    | some l =>
      if templateChar b then some (consChar b l)
      else
        match insertOf b with
        | some (i, w) => some (.ins i w :: l)
        | none => none

/-- The characters a segment takes. -/
def segmentWidth : Segment → Nat
  | .lit t => t.length
  | .ins _ w => w

/-- A segment cut to a width (R156). -/
def cutSegment (w : Nat) : Segment → Segment
  | .lit t => .lit (t.take w)
  | .ins i n => .ins i (min w n)

/-- A line truncated to the characters that remain (R156). -/
def truncateLine : Nat → List Segment → List Segment
  | _, [] => []
  | 0, _ => []
  | w, g :: gs => if segmentWidth g ≤ w then g :: truncateLine (w - segmentWidth g) gs else [cutSegment w g]

/-- A line as LOAD TEMPLATE stores it, none where it is refused (R156). -/
def lineOf (bs : List Byte) : Option (List Segment) :=
  match segmentsOf bs with
  | some l => if l.length ≤ 12 then some (truncateLine 40 l) else none
  | none => none

/-- A template of two lines. -/
def templateOf (line1 line2 : List Byte) : Option Template :=
  match lineOf line1, lineOf line2 with
  | some a, some b => some { line1 := a, line2 := b }
  | _, _ => none

/-- LOAD TEMPLATE (R156); the views are judged in the same action. -/
def execLoadTemplate (h : Hdr) (number : Byte) (line1 line2 : List Byte) (s : State) :
    Host.Outcome State Fault Refusal :=
  s.mgmt h (State.given h (indexOf 15 number) fun n => State.given h (templateOf line1 line2) fun t s =>
    ((({ s with env.set.templates := vset s.env.set.templates n t } : State)).plantly fun e x => x.judgeViews e).accept h)

/-- READ TEMPLATE (R168). -/
def execReadTemplate (h : Hdr) (number : Byte) (s : State) : Host.Outcome State Fault Refusal :=
  s.mgmt h (State.given h (indexOf 15 number) fun n s => s.show h (.template (s.env.set.templates.get n)))

/-! ### READ PROMPT, READ CONSOLE (R168) -/

/-- READ PROMPT: the open prompts in rank order, or the backlog from its oldest (R168). (DEDUCED, log 52.) -/
def execReadPrompt (h : Hdr) (collection index : Byte) (s : State) : Host.Outcome State Fault Refusal :=
  s.mgmt h (State.given h (boolOf collection) fun backlog s =>
    let u := s.plant.pru
    let ends : State := s.say h .ends (.promptEnd u.table.length u.backlog.length)
    if backlog then
      match u.backlog[index.toNat]? with
      | some r => s.show h (.backlogged r)
      | none => ends
    else
      match (ranked u.table)[index.toNat]? with
      | some p => s.show h (.prompt p)
      | none => ends)

/-- READ CONSOLE (R168). -/
def execReadConsole (h : Hdr) (console : Byte) (s : State) : Host.Outcome State Fault Refusal :=
  s.mgmt h (State.given h (consoleOf console) fun c s => s.show h (.console (s.plant.pru.con c) (s.env.switch c)))

end Sys2Proof.Machine
end

