-- ==== Sys2Proof/Machine/MgmtAccounting.lean ====
section
/-!
DEFINITION. Management of the Accounting Unit: the time base, the day clock, rates, shifts, accounts and the draining of
the buffer, with the quiet timer's expiry (R171–R179, R187–R191).
-/
namespace Sys2Proof.Machine

/-! ### Time base and day clock (R171, R172) -/

/-- SET TIME BASE (R171): a divisor of 0 is taken as 1. (DESIGN CHOICE, log 4.) -/
def execSetTimeBase (h : Hdr) (prescale : Byte) (divisor : BitVec 16) (s : State) : Host.Outcome State Fault Refusal :=
  s.mgmt h (State.given h (prescaleOf prescale) fun p =>
    State.setting h fun t => { t with prescale := p, divisor := max 1 divisor.toNat })

/-- SET CLOCK (R172). -/
def execSetClock (h : Hdr) (minute : BitVec 16) (s : State) : Host.Outcome State Fault Refusal :=
  s.mgmt h fun s =>
    if 1439 < minute.toNat then s.say h .badValue .nothing
    else ({ s with env := { s.env with minute := minute.toNat, sub := 0 } } : State).accept h

/-- READ CLOCK (R172). -/
def execReadClock (h : Hdr) (s : State) : Host.Outcome State Fault Refusal :=
  s.mgmt h fun s =>
    s.show h (.clock s.env.tick s.env.minute s.env.sub s.env.set.prescale s.env.set.divisor)

/-! ### Rates and shifts (R173, R174) -/

/-- A rate class's fields, none where they are refused (R173). -/
def rateOf (fee granule price wear : BitVec 16) : Option Rate :=
  if granule = 0 ∨ 36000 < granule.toNat then none
  else some { fee := fee.toNat, granule := granule.toNat, price := price.toNat, wear := wear.toNat }

/-- LOAD RATE (R173). -/
def execLoadRate (h : Hdr) (cls : Byte) (fee granule price wear : BitVec 16) (s : State) :
    Host.Outcome State Fault Refusal :=
  s.mgmt h (State.given h (indexOf 8 cls) fun c => State.given h (rateOf fee granule price wear) fun r =>
    State.setting h fun t => { t with rates := vset t.rates c r })

/-- READ RATE (R173). -/
def execReadRate (h : Hdr) (cls : Byte) (s : State) : Host.Outcome State Fault Refusal :=
  s.mgmt h (State.given h (indexOf 8 cls) fun c s => s.show h (.rate (s.env.set.rates.get c)))

/-- A period takes its place in a table in rising order of start minute. -/
def insertPeriod (p : Period) : List Period → List Period
  | [] => [p]
  | q :: qs => if p.start < q.start then p :: q :: qs else q :: insertPeriod p qs

/-- A shift table from its periods, none where it is refused (R174); a factor above 64 is taken as 64. -/
def shiftsOf (l : List (BitVec 16 × Byte)) : Option (List Period) :=
  let starts := l.map fun p => p.1.toNat
  if 4 < l.length ∨ starts.any (fun m => decide (1439 < m)) ∨ ¬starts.Nodup then none
  else some (l.foldl (fun t p => insertPeriod { start := p.1.toNat, factor := min 64 p.2.toNat } t) [])

/-- LOAD SHIFTS (R174). -/
def execLoadShifts (h : Hdr) (periods : List (BitVec 16 × Byte)) (s : State) : Host.Outcome State Fault Refusal :=
  s.mgmt h (State.given h (shiftsOf periods) fun l => State.setting h fun t => { t with shifts := l })

/-- READ SHIFTS (R174). -/
def execReadShifts (h : Hdr) (s : State) : Host.Outcome State Fault Refusal :=
  s.mgmt h fun s => s.show h (.shifts s.env.set.shifts)

/-! ### Accounts (R177, R179) -/

/-- Changing an account entry. -/
def Acu.updAccount (n : Fin 256) (f : Account → Account) (a : Acu) : Acu :=
  { a with accounts := vset a.accounts n (f (a.accounts.get n)) }

/-- LOAD ACCOUNT (R177). -/
def execLoadAccount (h : Hdr) (account cls : Byte) (allowance : BitVec 32) (s : State) :
    Host.Outcome State Fault Refusal :=
  s.mgmt h (State.given h (indexOf 8 cls) fun c s =>
    ({ s with acu := s.acu.updAccount account.toFin ({ · with cls := c, allowance := allowance.toNat }) } : State).accept h)

/-- The totals of an account cleared (R179). -/
def Account.clear (a : Account) : Account := { a with total := 0, mounts := 0, occupancy := 0, saturated := false }

/-- CLEAR ACCOUNT: one account, or ALL (R179). (DEDUCED, log 52.) -/
def execClearAccount (h : Hdr) (scope account : Byte) (s : State) : Host.Outcome State Fault Refusal :=
  s.mgmt h (State.given h (boolOf scope) fun all s =>
    if all then ({ s with acu := { s.acu with accounts := s.acu.accounts.map Account.clear } } : State).accept h
    else ({ s with acu := s.acu.updAccount account.toFin Account.clear } : State).accept h)

/-- READ ACCOUNT (R179). -/
def execReadAccount (h : Hdr) (account : Byte) (s : State) : Host.Outcome State Fault Refusal :=
  s.mgmt h fun s => s.show h (.account (s.acu.accounts.get account.toFin))

/-! ### Draining (R187–R191) -/

/-- Judging a trigger level just set: ACCT-READY when it was lowered to or below the present count, at least 1 (R187). -/
def State.judgeTrigger (old new : Nat) (s : State) : State :=
  if new < old ∧ new ≤ s.acu.buffer.length ∧ 1 ≤ s.acu.buffer.length then s.plantly fun e x => x.setFlag e .acctReady
  else s

/-- SET DRAIN (R187, R189). -/
def execSetDrain (h : Hdr) (trigger : Byte) (quiet : BitVec 16) (s : State) : Host.Outcome State Fault Refusal :=
  s.mgmt h (State.given h (triggerOf trigger) fun n s =>
    let old := s.env.set.trigger
    let s' : State := { s with env.set := { s.env.set with trigger := n, quiet := clamp 10 6000 quiet.toNat } }
    (s'.judgeTrigger old n).accept h)

/-- READ DRAIN (R189). -/
def execReadDrain (h : Hdr) (s : State) : Host.Outcome State Fault Refusal :=
  s.mgmt h fun s =>
    s.show h (.drain s.env.set.trigger s.env.set.quiet s.acu.buffer.length s.acu.nextSeq
      (s.acu.quietEnd.map fun t => remaining s.env.tick t))

/-- Records sent to the commanding path, oldest first (R190). -/
def Plant.sendRecords (h : Hdr) (l : List Usage) (x : Plant) : Plant :=
  l.foldl (fun y u => y.reply h .record (.usage u)) x

/-- The oldest records removed and sent, the closing reply, and ACCT-READY cleared where the buffer is left empty
(R190 step 3). -/
def State.takeRecords (h : Hdr) (k : Nat) (s : State) : State :=
  let taken := s.acu.buffer.take k
  let left := s.acu.buffer.drop k
  let y := s.plant.sendRecords h taken
  let z := if left = [] then y.clearFlag EventFlag.acctReady.index else y
  ({ s with acu := { s.acu with buffer := left }, plant := z } : State).say h .accepted (.taken taken.length left.length)

/-- TAKE (R190). (DEDUCED, log 52.) -/
def execTake (h : Hdr) (k given : Byte) (expected : BitVec 16) (s : State) : Host.Outcome State Fault Refusal :=
  s.mgmt h (State.given h (boolOf given) fun g s =>
    if k = 0 ∨ 8 < k.toNat then s.say h .badValue .nothing
    else
      match s.acu.buffer with
      | [] => s.takeRecords h k.toNat
      | u :: _ =>
        if g && u.seq ≠ expected.toNat then s.say h .sequence (.sequence u.seq) else s.takeRecords h k.toNat)

/-- READ RECORD (R191). -/
def execReadRecord (h : Hdr) (index : Byte) (s : State) : Host.Outcome State Fault Refusal :=
  s.mgmt h fun s =>
    match s.acu.buffer[index.toNat]? with
    | some u => s.show h (.usageAt u s.acu.buffer.length)
    | none => s.say h .ends (.length 1 s.acu.buffer.length)

/-- The quiet timer stops; ACCT-READY is set when the buffer holds a record (R188). -/
def State.quietExpired (s : State) : State :=
  let y : State := { s with acu := { s.acu with quietEnd := none } }
  if s.acu.buffer = [] then y else y.plantly fun e x => x.setFlag e .acctReady

/-- QUIET_TIMER_EXPIRY (R188): nothing where the timer is stopped or has not reached its expiry.
(DESIGN CHOICE, log 22.) -/
def execQuietTimerExpiry (s : State) : Host.Outcome State Fault Refusal :=
  s.run fun s =>
    match s.acu.quietEnd with
    | some t => if reached s.env.tick t then s.quietExpired else s
    | none => s

end Sys2Proof.Machine
end

