-- ==== Sys2Proof/Machine/MgmtAudit.lean ====
section
/-!
DEFINITION. Management of the Audit Unit, and the expiry of the audit interval timer (R193–R199, R203, R209).
-/
namespace Sys2Proof.Machine

/-! ### The sweep table (R193, R194) -/

/-- A sweep entry from its four bytes, none where it is refused (R193, R234). (DEDUCED, logs 18 and 53.) -/
def sweepEntryOf (kind bay first last : Byte) : Option SweepEntry :=
  if 4 ≤ kind.toNat then none
  else if !kind.getLsbD 0 then some .fin
  else if storageBay bay.toNat && first.toNat ≤ last.toNat && last.toNat ≤ 15 then
    some (.range bay.toNat first.toNat last.toNat (kind.getLsbD 1))
  else none

/-- LOAD SWEEP (R193). -/
def execLoadSweep (h : Hdr) (entry kind bay first last : Byte) (s : State) : Host.Outcome State Fault Refusal :=
  s.mgmt h (State.given h (indexOf 64 entry) fun n => State.given h (sweepEntryOf kind bay first last) fun v =>
    State.setting h fun t => { t with sweep := vset t.sweep n v })

/-- SET SWEEP BOUNDARY (R194). -/
def execSetSweepBoundary (h : Hdr) (l2 : Byte) (s : State) : Host.Outcome State Fault Refusal :=
  s.mgmt h (State.setting h fun t => { t with l2 := l2.toNat })

/-! ### SET AUDIT MODE (R196, R203) -/

/-- The accessor that has a list's leg in hand. -/
def Plant.auditAcc (l : ListNo) (x : Plant) : Option Acc :=
  [Acc.A, Acc.B].find? fun a =>
    match (x.acc a).leg with
    | some g => g.owner = Owner.audit l
    | none => false

/-- MOU ends a list's leg (R104, R203): one in the queue or between steps at once, one with a step in flight at its
completion. -/
def Plant.endAuditLeg (e : Env) (l : ListNo) (x : Plant) : Plant :=
  if x.mou.queue.any (fun g => g.owner = Owner.audit l) then
    ({ x with mou.queue := x.mou.queue.filter (fun g => g.owner ≠ Owner.audit l) } : Plant).auditStopped e l
  else
    match x.auditAcc l with
    | some a => if (x.acc a).step.isSome then x.updAcc a ({ · with ending := true }) else (x.endLeg e a).auditStopped e l
    | none => x

/-- A live pass ends without DONE (R203). -/
def Plant.endPass (e : Env) (l : ListNo) (x : Plant) : Plant :=
  match (x.list l).state with
  | .idle => x
  | .paused => x.updList l ({ · with state := .idle })
  | .running | .suspended => (x.updList l ({ · with state := .idle })).endAuditLeg e l

/-- A list takes another mode (R196): the armed and start pending marks go, a live pass ends, the timer is judged.
(DEDUCED, log 16.) -/
def Plant.setMode (e : Env) (l : ListNo) (m : AuditMode) (x : Plant) : Plant :=
  ((x.updList l ({ · with mode := m, armed := false, startPending := false })).endPass e l).judgeTimer e

/-- SET AUDIT MODE (R196). -/
def execSetAuditMode (h : Hdr) (list mode : Byte) (s : State) : Host.Outcome State Fault Refusal :=
  s.mgmt h (State.given h (listOf list) fun l => State.given h (auditModeOf mode) fun m s =>
    if (s.plant.list l).mode = m then s.accept h
    else ((s.plantly fun e x => x.setMode e l m).accept h).settled)

/-! ### START SWEEP (R197) -/

/-- START SWEEP's outcome: the plant where it is accepted, or the reply that refuses it. -/
def Plant.startSweep (e : Env) (l : ListNo) (x : Plant) : Except Reply Plant :=
  let c := x.list l
  if c.state = .paused then .ok (x.trigger e l)
  else
    match c.mode with
    | .command => if c.state = .idle then .ok (x.trigger e l) else .error .busy
    | .intervalOnce => .ok ((x.updList l ({ · with armed := true })).judgeTimer e)
    | .off | .door | .interval => .error .wrongMode

/-- START SWEEP (R197). -/
def execStartSweep (h : Hdr) (list : Byte) (s : State) : Host.Outcome State Fault Refusal :=
  s.mgmt h (State.given h (listOf list) fun l s =>
    match s.plant.startSweep s.env l with
    | .error r => s.say h r .nothing
    | .ok x => (({ s with plant := x } : State).accept h).settled)

/-! ### The interval timer (R199) -/

/-- SET AUDIT INTERVAL (R199). -/
def execSetAuditInterval (h : Hdr) (interval : BitVec 16) (s : State) : Host.Outcome State Fault Refusal :=
  s.mgmt h fun s =>
    if interval.toNat < 100 then s.say h .badValue .nothing
    else s.setting h (fun t => { t with auditInterval := interval.toNat })

/-- An expiry of the timer (R199): it starts again if its condition still holds, one interval after the tick at which the
expiry is taken (DESIGN CHOICE, log 83), and every list in INTERVAL or armed in INTERVAL-ONCE is triggered, list 1 first.
Which lists those are is judged before either takes its trigger. -/
def Plant.intervalExpired (e : Env) (x : Plant) : Plant :=
  let one := x.adu.list1.wantsTimer
  let two := x.adu.list2.wantsTimer
  let y := ({ x with adu.timer := none } : Plant).judgeTimer e
  let z := if one then y.trigger e .one else y
  if two then z.trigger e .two else z

/-- AUDIT_INTERVAL_EXPIRY (R199). (DESIGN CHOICE, log 22.) -/
def execAuditIntervalExpiry (s : State) : Host.Outcome State Fault Refusal :=
  s.run fun s =>
    match s.plant.adu.timer with
    | some t => if reached s.env.tick t then s.moving fun e x => x.intervalExpired e else s
    | none => s

/-! ### Reads (R209) -/

/-- READ SWEEP ENTRY (R209). -/
def execReadSweepEntry (h : Hdr) (entry : Byte) (s : State) : Host.Outcome State Fault Refusal :=
  s.mgmt h (State.given h (indexOf 64 entry) fun n s => s.show h (.sweepEntry (s.env.set.sweep.get n)))

/-- READ SWEEP LIST (R209). -/
def execReadSweepList (h : Hdr) (list : Byte) (s : State) : Host.Outcome State Fault Refusal :=
  s.mgmt h (State.given h (listOf list) fun l s => s.show h (.sweepList (s.plant.list l) s.env.set.l2))

/-- READ SWEEP TIMER (R209). -/
def execReadSweepTimer (h : Hdr) (s : State) : Host.Outcome State Fault Refusal :=
  s.mgmt h fun s =>
    s.show h (.sweepTimer s.env.set.auditInterval (s.plant.adu.timer.map fun t => remaining s.env.tick t))

end Sys2Proof.Machine
end

