-- ==== Sys2Proof/Machine/Wire.lean ====
section
/-!
DEFINITION. The frame form both links share, the escape, the check word, and the receiver's judgement of a frame
(R211–R213, R230, R231).
-/
namespace Sys2Proof.Machine

/-! ### The check word (R211, R230) -/

/-- One bit of the check word register. -/
def crcBit (r : BitVec 16) : BitVec 16 := if r.getLsbD 15 then (r <<< 1) ^^^ 0x1021#16 else r <<< 1

/-- One byte, from its highest bit down. -/
def crcByte (r : BitVec 16) (b : Byte) : BitVec 16 :=
  crcBit (crcBit (crcBit (crcBit (crcBit (crcBit (crcBit (crcBit (r ^^^ (b.setWidth 16 <<< 8)))))))))

/-- The check word of bytes, from the starting value of all ones. -/
def crc16 (l : List Byte) : BitVec 16 := l.foldl crcByte 0xFFFF#16

/-! ### Numbers as bytes, high byte first (R229) -/

/-- A number as `w` bytes. -/
def beBytes : Nat → Nat → List Byte
  | 0, _ => []
  | w + 1, n => beBytes w (n / 256) ++ [BitVec.ofNat 8 n]

/-- The number that bytes give. -/
def beValue (l : List Byte) : Nat := l.foldl (fun n b => n * 256 + b.toNat) 0

/-! ### Escaping (R230) -/

/-- The start delimiter. -/
def startByte : Byte := 0xA5#8

/-- The escape. -/
def escapeByte : Byte := 0xA6#8

/-- The sender's replacement of one byte. -/
def escapeOne (b : Byte) : List Byte :=
  if b = startByte then [escapeByte, 0xE5#8] else if b = escapeByte then [escapeByte, 0xE6#8] else [b]

def escapeBytes (l : List Byte) : List Byte := l.flatMap escapeOne

/-- How the bytes after a start delimiter end: they run out; an unescaped start delimiter follows; or an escape is
followed by a byte that undoes no escape (R213 check 1, R230). -/
inductive Ending where
  | open_ | delimiter | badEscape
deriving DecidableEq, Repr

/-- The receiver's undoing of the escape, up to the first flaw. -/
def unescape : List Byte → List Byte × Ending
  | [] => ([], .open_)
  | b :: bs =>
    if b = startByte then ([], .delimiter)
    else if b = escapeByte then
      match bs with
      | [] => ([], .open_)
      | c :: cs =>
        if c = 0xE5#8 then (startByte :: (unescape cs).1, (unescape cs).2)
        else if c = 0xE6#8 then (escapeByte :: (unescape cs).1, (unescape cs).2)
        else ([], .badEscape)
    else (b :: (unescape bs).1, (unescape bs).2)

/-! ### Frames (R211, R230) -/

/-- A frame's class, address and payload. -/
structure Frame where
  cls : Byte
  address : Byte
  payload : List Byte
deriving DecidableEq, Repr

/-- Header and payload, over which the check word is computed. -/
def Frame.body (f : Frame) : List Byte := f.cls :: f.address :: BitVec.ofNat 8 f.payload.length :: f.payload

/-- The bytes of a frame as sent: the start delimiter, and the rest escaped. -/
def Frame.sent (f : Frame) : List Byte :=
  startByte :: escapeBytes (f.body ++ beBytes 2 (crc16 f.body).toNat)

/-! ### Judging (R213) -/

/-- What the far side of a link sends (R212). -/
inductive ClassIn where
  | order | mgmt | stepReport | driveReport | key | sensor
deriving DecidableEq, Repr

/-- The class a code names on a link, among those its far side sends (R212, R230). -/
def classIn (l : Link) (c : Byte) : Option ClassIn :=
  match l with
  | .C => if c = 0x01 then some .order else if c = 0x02 then some .mgmt else none
  | .M =>
    if c = 0x91 then some .stepReport else if c = 0x92 then some .driveReport else if c = 0x94 then some .key
    else if c = 0x95 then some .sensor else none

/-- The address is a station that sends the class (R213 check 5); on the C-link there is no such check.
(DEDUCED, log 57.) -/
def addressOk (c : ClassIn) (a : Byte) : Bool :=
  match c with
  | .order | .mgmt => true
  | .stepReport => a = 1 || a = 2
  | .driveReport => 32 ≤ a.toNat && a.toNat ≤ 63
  | .key => a = 4 || a = 5
  | .sensor => a = 6

/-- A label reading of six bytes (R231). -/
def readingOf (l : List Byte) : Option Reading :=
  if l = List.replicate 6 0x00#8 then some .empty
  else if l = List.replicate 6 0xFF#8 then some .unreadable
  else (serialOf l).map .serial

/-- Readings, six bytes each. -/
def readingsOf : Nat → List Byte → Option (List Reading)
  | 0, l => if l = [] then some [] else none
  | n + 1, l =>
    match readingOf (l.take 6), readingsOf n (l.drop 6) with
    | some r, some rs => some (r :: rs)
    | _, _ => none

/-- A STEP-REPORT's contents after its tag, as their command (R231). -/
def stepReportOf (a : Acc) (tag code : Byte) (rest : List Byte) : Option Instr :=
  let bare (i : Instr) : Option Instr := if rest = [] then some i else none
  if code = 1 then bare (.arrived a tag)
  else if code = 2 then
    match readingOf rest with
    | some (.serial s) => some (.picked a tag (.serial s))
    | some .unreadable => some (.picked a tag .unreadable)
    | _ => none
  else if code = 3 then bare (.gripMiss a tag)
  else if code = 4 then bare (.placed a tag)
  else if code = 5 then bare (.placeBlocked a tag)
  else if code = 6 then
    if 1 ≤ rest.length / 6 ∧ rest.length / 6 ≤ 16 then
      (readingsOf (rest.length / 6) rest).map fun rs => .readDone a tag rs
    else none
  else if code = 7 then
    match rest with
    | bay :: g => (readingOf g).map fun r => .recovered a tag bay r
    | [] => none
  else if code = 8 then bare (.motor a tag)
  else if code = 9 then bare (.labelDevice a tag)
  else none

/-- A DRIVE-REPORT as its command (R231). -/
def driveReportOf (d : DriveNo) (code : Byte) (rest : List Byte) : Option Instr :=
  let bare (i : Instr) : Option Instr := if rest = [] then some i else none
  if code = 1 then bare (.ready d)
  else if code = 2 then bare (.threadFail d)
  else if code = 3 then
    if rest.length = 8 then
      some (.unloaded d (BitVec.ofNat 16 (beValue (rest.take 2))) (BitVec.ofNat 24 (beValue ((rest.drop 2).take 3)))
        (BitVec.ofNat 24 (beValue (rest.drop 5))))
    else none
  else if code = 4 then bare (.online d)
  else if code = 5 then bare (.offline d)
  else if code = 6 then bare (.check d)
  else none

/-- A KEY as its command (R231). -/
def keyOf (k : Keyed) (code : Byte) : Option Instr :=
  if code = 1 then some (.doneKey k) else if code = 2 then some (.cancelKey k) else if code = 3 then some (.skipKey k)
  else if code = 4 then some (.holdKey k) else if code = 5 then some (.enterKey k)
  else if code = 6 then some (.switchRun k) else if code = 7 then some (.switchMaintain k) else none

/-- The command an M-link payload gives, none where check 6 of R213 fails. -/
def mPayload (c : ClassIn) (address : Byte) (p : List Byte) : Option Instr :=
  match c with
  | .order | .mgmt => none
  | .stepReport =>
    match p with
    | tag :: code :: rest => stepReportOf (if address = 1 then .A else .B) tag code rest
    | _ => none
  | .driveReport =>
    match driveOf (address - 32), p with
    | some d, code :: rest => driveReportOf d code rest
    | _, _ => none
  | .key =>
    match p with
    | [code, n, a, b] =>
      keyOf { console := if address = 4 then .one else .two, number := n, prompt := a ++ b } code
    | _ => none
  | .sensor => if p = [0x00#8] then some .doorOpen else if p = [0x01#8] then some .doorClosed else none

/-- Check 6 of R213. -/
def payloadOk (c : ClassIn) (address : Byte) (p : List Byte) : Bool :=
  match c with
  | .order | .mgmt => 2 ≤ p.length
  | c => (mPayload c address p).isSome

/-- What the receiver makes of the bytes after a start delimiter. -/
inductive Verdict where
  /-- the frame has not arrived whole -/
  | incomplete
  | malformed
  | frame (c : ClassIn) (address : Byte) (payload : List Byte)
deriving DecidableEq, Repr

/-- Checks 3 to 6, on a frame that has arrived whole. -/
def judgeWhole (l : Link) (cls address len : Byte) (rest : List Byte) : Verdict :=
  let payload := rest.take len.toNat
  let check := (rest.drop len.toNat).take 2
  if beValue check ≠ (crc16 (cls :: address :: len :: payload)).toNat then .malformed
  else
    match classIn l cls with
    | none => .malformed
    | some c => if addressOk c address && payloadOk c address payload then .frame c address payload else .malformed

/-- The receiver's judgement (R213). (DEDUCED, log 57.) -/
def judgeFrame (l : Link) (bytes : List Byte) : Verdict :=
  let (data, ending) := unescape bytes
  match data with
  | cls :: address :: len :: rest =>
    if rest.length < len.toNat + 2 ∧ ending ≠ .open_ then .malformed
    else if 128 < len.toNat then .malformed
    else if rest.length < len.toNat + 2 then .incomplete
    else judgeWhole l cls address len rest
  | _ => if ending = .open_ then .incomplete else .malformed

end Sys2Proof.Machine
end

