-- ==== Sys2Proof/Machine/Receive.lean ====
section
/-!
DEFINITION. The command each frame taken from a link gives: the payloads of orders, of management commands and of the
mechanisms' reports read into the operands of their commands (R28, R213, R231, R232, R234).
-/
namespace Sys2Proof.Machine

/-! ### Fields of a payload -/

/-- One byte; a byte that did not arrive reads as 0, and the payload is then not of its command's length. -/
def byteAt (p : List Byte) (k : Nat) : Byte := p.getD k 0

def bytesAt (p : List Byte) (k n : Nat) : List Byte := (p.drop k).take n

def halfAt (p : List Byte) (k : Nat) : BitVec 16 := BitVec.ofNat 16 (beValue (bytesAt p k 2))

def wordAt (p : List Byte) (k : Nat) : BitVec 32 := BitVec.ofNat 32 (beValue (bytesAt p k 4))

/-! ### Orders (R232) -/

/-- The length each order kind requires. -/
def orderLength (kind : Byte) : Nat :=
  if kind = 1 then 11 else if kind = 2 then 4 else if kind = 5 then 8 else 3

/-- An ORDER payload as its command. -/
def orderOf (p : Path) (d : List Byte) : Instr :=
  let kind := byteAt d 1
  let h : Hdr := { path := p, tag := byteAt d 0, sized := d.length = orderLength kind }
  if kind = 1 then .mount h (bytesAt d 2 6) (byteAt d 8) (byteAt d 9) (byteAt d 10)
  else if kind = 2 then .mountScratch h (byteAt d 2) (byteAt d 3)
  else if kind = 3 then .dismount h (byteAt d 2)
  else if kind = 4 then .cancel h (byteAt d 2)
  else if kind = 5 then .queryVolume h (bytesAt d 2 6)
  else if kind = 6 then .queryDrive h (byteAt d 2)
  else .badOrder h kind

/-! ### Management commands (R234) -/

/-- Whether a command code names a command: 01h to 3Ah. -/
def knownCommand (code : Byte) : Bool := 1 ≤ code.toNat && code.toNat ≤ 0x3A

/-- The length each command requires; for LOAD TEMPLATE, LOAD SHIFTS and CLEAR FLAGS it follows from what the payload
carries. -/
def mgmtLength (d : List Byte) : Nat :=
  let code := (byteAt d 1).toNat
  if code = 0x17 then
    5 + (byteAt d 3).toNat + (byteAt d (4 + (byteAt d 3).toNat)).toNat
  else if code = 0x21 then 3 + 3 * (byteAt d 2).toNat
  else if code = 0x37 then 3 + 5 * (byteAt d 2).toNat
  else
    [0, 23, 8, 10, 8, 8, 4, 4, 4, 18, 18, 2, 5, 2, 5, 8, 3, 4, 3, 3, 10, 3, 8, 0, 4, 3, 3, 3, 5, 4, 2, 11, 3, 0, 2, 8, 4, 3,
     5, 2, 6, 3, 7, 3, 4, 3, 4, 3, 3, 2, 2, 3, 3, 2, 2, 0, 4, 2, 2].getD code 0

/-- The periods of LOAD SHIFTS. -/
def periodsAt : Nat → List Byte → List (BitVec 16 × Byte)
  | 0, _ => []
  | n + 1, d => (halfAt d 0, byteAt d 2) :: periodsAt n (d.drop 3)

/-- The pairs of CLEAR FLAGS. -/
def pairsAt : Nat → List Byte → List (Byte × BitVec 32)
  | 0, _ => []
  | n + 1, d => (byteAt d 0, wordAt d 1) :: pairsAt n (d.drop 5)

/-- The fields of LOAD VOLUME. -/
def volumeFieldsAt (d : List Byte) : VolumeFields where
  serial := bytesAt d 2 6
  cls := byteAt d 8
  home := halfAt d 9
  locKind := byteAt d 11
  locNum := halfAt d 12
  ring := byteAt d 14
  flags := byteAt d 15
  mounts := halfAt d 16
  footage := wordAt d 18
  fails := byteAt d 22

/-- The fields of FENCE WRITE and FENCE PERSIST. -/
def fenceFieldsAt (d : List Byte) : FenceFields where
  index := byteAt d 2
  first := bytesAt d 3 6
  last := bytesAt d 9 6
  enabled := byteAt d 15
  invert := byteAt d 16
  mode := byteAt d 17

/-- The commands 01h to 1Dh. -/
def mgmtLow (h : Hdr) (d : List Byte) : Nat → Option Instr
  | 0x01 => some (.loadVolume h (volumeFieldsAt d))
  | 0x02 => some (.deleteVolume h (bytesAt d 2 6))
  | 0x03 => some (.setVolumeFlags h (bytesAt d 2 6) (byteAt d 8) (byteAt d 9))
  | 0x04 => some (.readVolume h (bytesAt d 2 6))
  | 0x05 => some (.readNextVolume h (bytesAt d 2 6))
  | 0x06 => some (.readCell h (halfAt d 2))
  | 0x07 => some (.readSlot h (byteAt d 2) (byteAt d 3))
  | 0x08 => some (.readPool h (halfAt d 2))
  | 0x09 => some (.fenceWrite h (fenceFieldsAt d))
  | 0x0A => some (.fencePersist h (fenceFieldsAt d))
  | 0x0B => some (.readFence h)
  | 0x0C => some (.setWearLimits h (halfAt d 2) (byteAt d 4))
  | 0x0D => some (.readWearLimits h)
  | 0x0E => some (.setPace h (byteAt d 2) (byteAt d 3) (byteAt d 4))
  | 0x0F => some (.eject h (bytesAt d 2 6))
  | 0x10 => some (.readTask h (byteAt d 2))
  | 0x11 => some (.setTenure h (halfAt d 2))
  | 0x12 => some (.readAccessor h (byteAt d 2))
  | 0x13 => some (.readLeg h (byteAt d 2))
  | 0x14 => some (.loadDrive h (byteAt d 2) (byteAt d 3) (byteAt d 4) (wordAt d 5) (byteAt d 9))
  | 0x15 => some (.readDrive h (byteAt d 2))
  | 0x16 => some (.setPromptTimes h (byteAt d 2) (halfAt d 3) (halfAt d 5) (byteAt d 7))
  | 0x17 =>
    let n := (byteAt d 3).toNat
    some (.loadTemplate h (byteAt d 2) (bytesAt d 4 n) (bytesAt d (5 + n) (byteAt d (4 + n)).toNat))
  | 0x18 => some (.readPrompt h (byteAt d 2) (byteAt d 3))
  | 0x19 => some (.readConsole h (byteAt d 2))
  | 0x1A => some (.readTemplate h (byteAt d 2))
  | 0x1B => some (.readPromptTimes h (byteAt d 2))
  | 0x1C => some (.setTimeBase h (byteAt d 2) (halfAt d 3))
  | 0x1D => some (.setClock h (halfAt d 2))
  | _ => none

/-- The commands 1Eh to 3Ah. -/
def mgmtHigh (h : Hdr) (d : List Byte) : Nat → Option Instr
  | 0x1E => some (.readClock h)
  | 0x1F => some (.loadRate h (byteAt d 2) (halfAt d 3) (halfAt d 5) (halfAt d 7) (halfAt d 9))
  | 0x20 => some (.readRate h (byteAt d 2))
  | 0x21 => some (.loadShifts h (periodsAt (byteAt d 2).toNat (d.drop 3)))
  | 0x22 => some (.readShifts h)
  | 0x23 => some (.loadAccount h (byteAt d 2) (byteAt d 3) (wordAt d 4))
  | 0x24 => some (.clearAccount h (byteAt d 2) (byteAt d 3))
  | 0x25 => some (.readAccount h (byteAt d 2))
  | 0x26 => some (.setDrain h (byteAt d 2) (halfAt d 3))
  | 0x27 => some (.readDrain h)
  | 0x28 => some (.take h (byteAt d 2) (byteAt d 3) (halfAt d 4))
  | 0x29 => some (.readRecord h (byteAt d 2))
  | 0x2A => some (.loadSweep h (byteAt d 2) (byteAt d 3) (byteAt d 4) (byteAt d 5) (byteAt d 6))
  | 0x2B => some (.setSweepBoundary h (byteAt d 2))
  | 0x2C => some (.setAuditMode h (byteAt d 2) (byteAt d 3))
  | 0x2D => some (.startSweep h (byteAt d 2))
  | 0x2E => some (.setAuditInterval h (halfAt d 2))
  | 0x2F => some (.readSweepEntry h (byteAt d 2))
  | 0x30 => some (.readSweepList h (byteAt d 2))
  | 0x31 => some (.readSweepTimer h)
  | 0x32 => some (.readLink h)
  | 0x33 => some (.clearLinkCounters h (byteAt d 2))
  | 0x34 => some (.setManagementPaths h (byteAt d 2))
  | 0x35 => some (.readState h)
  | 0x36 => some (.readFlags h)
  | 0x37 => some (.clearFlags h (pairsAt (byteAt d 2).toNat (d.drop 3)))
  | 0x38 => some (.setNoticeMask h (halfAt d 2))
  | 0x39 => some (.libraryStart h)
  | 0x3A => some (.restart h)
  | _ => none

/-- An MGMT payload as its command. -/
def mgmtOf (p : Path) (d : List Byte) : Instr :=
  let code := byteAt d 1
  let h : Hdr := { path := p, tag := byteAt d 0, sized := d.length = mgmtLength d }
  ((mgmtLow h d code.toNat).or (mgmtHigh h d code.toNat)).getD (.unknownCommand h code)

/-! ### Frames -/

/-- The path of a C-link address; an address above 3 names no path and the frame no command. -/
def pathOf (a : Byte) : Option Path := if h : a.toNat < 4 then some ⟨a.toNat, h⟩ else none

/-- The command that the bytes after a start delimiter give; none while the frame has not arrived whole. -/
def commandOf (l : Link) (bytes : List Byte) : Option Instr :=
  match judgeFrame l bytes with
  | .incomplete => none
  | .malformed => some (.malformedFrame l bytes)
  | .frame .order a p => (pathOf a).map fun q => orderOf q p
  | .frame .mgmt a p => (pathOf a).map fun q => mgmtOf q p
  | .frame c a p => mPayload c a p

/-! ### The stream of a link (R211, R213, R230) -/

/-- A link's receiver: it discards bytes until an unescaped start delimiter, or holds the bytes of the frame so far. It
stands outside `State`, since a command is a whole frame. (DEDUCED, log 57.) -/
inductive Receiver where
  | hunting
  | within (bytes : List Byte)
deriving DecidableEq, Repr

/-- One byte reaches the receiver. A start delimiter within a frame makes the frame so far malformed, whether or not an
escape stands before it, and begins the next frame; after a malformed frame, and between frames, bytes are discarded
until the next start delimiter (R213, R230). -/
def Receiver.take (l : Link) (r : Receiver) (b : Byte) : Receiver × Option Instr :=
  match r with
  | .hunting => (if b = startByte then .within [] else .hunting, none)
  | .within bytes =>
    let d := bytes ++ [b]
    if b = startByte then (.within [], some (.malformedFrame l d))
    else
      match judgeFrame l d with
      | .incomplete => (.within d, none)
      | _ => (.hunting, commandOf l d)

/-- The commands that a stream of bytes gives, in order, and what the receiver is left with. -/
def Receiver.stream (l : Link) (r : Receiver) : List Byte → Receiver × List Instr
  | [] => (r, [])
  | b :: bs =>
    let (q, i) := r.take l b
    let (z, is) := Receiver.stream l q bs
    (z, i.toList ++ is)

/-- A receiver at power-on and at hard reset (R214). -/
def Receiver.boot : Receiver := .hunting

end Sys2Proof.Machine
end

