-- ==== Sys2Proof/Machine/MgmtUnit.lean ====
section
/-!
DEFINITION. The Management Unit's own commands: links, paths, state, event flags, notices, LIBRARY START, and the frames
that give no command (R213, R214, R216–R221, R226).
-/
namespace Sys2Proof.Machine

/-! ### Links (R213, R214) -/

/-- A link error is counted, and LINK-ERROR set where it is clear (R214). -/
def State.linkError (l : Link) (s : State) : State :=
  let y : State := match l with
    | .C => { s with env.linkC := satAdd 65535 s.env.linkC 1 }
    | .M => { s with env.linkM := satAdd 65535 s.env.linkM 1 }
  if (s.plant.mgu.flags.get EventFlag.linkError.index).isSet then y else y.plantly fun e x => x.setFlag e .linkError

/-- MALFORMED_FRAME (R213, R214): bytes the receiver does not find malformed are not this event. (DEDUCED, log 57;
DESIGN CHOICE, log 79.) -/
def execMalformedFrame (l : Link) (bytes : List Byte) (s : State) : Host.Outcome State Fault Refusal :=
  s.run fun s => if judgeFrame l bytes = .malformed then s.linkError l else s

/-- READ LINK (R214). -/
def execReadLink (h : Hdr) (s : State) : Host.Outcome State Fault Refusal :=
  s.mgmt h fun s => s.show h (.link s.env.linkC s.env.linkM)

/-- CLEAR LINK COUNTERS: C, M or BOTH (R214). -/
def execClearLinkCounters (h : Hdr) (name : Byte) (s : State) : Host.Outcome State Fault Refusal :=
  s.mgmt h fun s =>
    if name = 0 then ({ s with env.linkC := 0 } : State).accept h
    else if name = 1 then ({ s with env.linkM := 0 } : State).accept h
    else if name = 2 then ({ s with env := { s.env with linkC := 0, linkM := 0 } } : State).accept h
    else s.say h .badValue .nothing

/-! ### Paths, state, flags (R216, R218, R220, R221) -/

/-- A management path mask a command gives: it must hold the commanding path, and names no path above 3 (R216).
(DEDUCED, log 7.) -/
def maskOf (p : Path) (mask : Byte) : Option (BitVec 4) :=
  if 16 ≤ mask.toNat then none else if mask.getLsbD p.val then some (mask.setWidth 4) else none

/-- SET MANAGEMENT PATHS (R216). -/
def execSetManagementPaths (h : Hdr) (mask : Byte) (s : State) : Host.Outcome State Fault Refusal :=
  s.mgmt h (State.given h (maskOf h.path mask) fun m => State.setting h fun t => { t with mgmtMask := m })

/-- READ STATE (R218). -/
def execReadState (h : Hdr) (s : State) : Host.Outcome State Fault Refusal :=
  s.mgmt h fun s =>
    let m := s.plant.mgu
    s.show h (.state m.lib m.ansA m.ansB m.outcome s.env.set.mgmtMask s.env.set.noticeMask m.gen)

/-- READ FLAGS (R218). -/
def execReadFlags (h : Hdr) (s : State) : Host.Outcome State Fault Refusal :=
  s.mgmt h fun s => s.show h (.flags s.plant.mgu.flags s.plant.mgu.gen)

/-- The pairs of CLEAR FLAGS, none where one names no flag or a flag stands twice (R220). -/
def pairsOf (l : List (Byte × BitVec 32)) : Option (List (Fin 14 × Nat)) :=
  match l.mapM fun p => (indexOf 14 p.1).map fun i => (i, p.2.toNat) with
  | some q => if (q.map fun p => p.1).Nodup then some q else none
  | none => none

/-- A pair is met: the flag is set at the generation given. -/
def Plant.pairMet (p : Fin 14 × Nat) (x : Plant) : Bool :=
  (x.mgu.flags.get p.1).isSet && (x.mgu.flags.get p.1).gen = p.2

/-- The pairs that are met have their flags cleared. -/
def Plant.clearPairs (l : List (Fin 14 × Nat)) (x : Plant) : Plant :=
  l.foldl (fun y p => if y.pairMet p then y.clearFlag p.1 else y) x

/-- CLEAR FLAGS (R220): ACCEPTED carries the flags cleared and the flags still set. -/
def execClearFlags (h : Hdr) (pairs : List (Byte × BitVec 32)) (s : State) : Host.Outcome State Fault Refusal :=
  s.mgmt h (State.given h (pairsOf pairs) fun l s =>
    let y := s.plantly fun _ x => x.clearPairs l
    let left := flagSet y.plant.mgu.flags
    y.say h .accepted (.flagsCleared (flagSet s.plant.mgu.flags &&& ~~~left) left))

/-- SET NOTICE MASK (R221): bit n for flag n; the two bits that name no flag are not kept. (DEDUCED, log 6.) -/
def execSetNoticeMask (h : Hdr) (marks : BitVec 16) (s : State) : Host.Outcome State Fault Refusal :=
  s.mgmt h (State.setting h fun t => { t with noticeMask := marks.setWidth 14 })

/-! ### LIBRARY START (R226) -/

/-- LIBRARY START (R226): the library is RUNNING and both accessors are sent RECOVER, A's first, or keep it under
hold. (DEDUCED, log 27; DESIGN CHOICE, log 59.) -/
def execLibraryStart (h : Hdr) (s : State) : Host.Outcome State Fault Refusal :=
  s.mgmt h fun s =>
    if s.plant.mgu.lib = .loading then
      (({ s with plant.mgu.lib := .running } : State).plantly fun e x => (x.recover e .A).recover e .B).accept h
    else s.say h .wrongState .nothing

/-! ### Frames that give no command (R216, R217) -/

/-- UNKNOWN_COMMAND (R217); a code that names a command is not this event. (DEDUCED, log 13; DESIGN CHOICE,
log 79.) -/
def execUnknownCommand (h : Hdr) (code : Byte) (s : State) : Host.Outcome State Fault Refusal :=
  if knownCommand code then s.run id
  else s.mgmt { h with sized := true } fun s => s.say h .unknownCommand .nothing

/-- NOT_PERMITTED (R216): the reply and no other effect; from a path in the mask the frame is not this event.
(DESIGN CHOICE, log 79.) -/
def execNotPermitted (h : Hdr) (code : Byte) (s : State) : Host.Outcome State Fault Refusal :=
  let _ := code
  s.run fun s => if s.env.set.mgmtMask.getLsbD h.path.val then s else s.say h .notPermitted .nothing

end Sys2Proof.Machine
end

