-- ==== Sys2Proof/Machine/Startup.lean ====
section
/-!
DEFINITION. Power-on, hard reset, the reset pin, the start image and the clock (R171, R172, R223–R225, R235).
-/
namespace Sys2Proof.Machine

/-! ### Applying the image (R225, R235) -/

/-- An item of the image: its value, or its default, with a count of 1 where it is defaulted. -/
def item {α : Type} (o : Option α) (d : α) : α × Nat :=
  match o with
  | some a => (a, 0)
  | none => (d, 1)

/-- A table of items: each entry, and how many are defaulted. -/
def items {α : Type} (n : Nat) (f : Fin n → Option α) (d : Fin n → α) : Vector α n × Nat :=
  (Vector.ofFn fun i => (item (f i) (d i)).1, ((List.finRange n).map fun i => (item (f i) (d i)).2).sum)

/-- The management path mask of the image: an empty mask is invalid. -/
def imageMask (b : Byte) : Option (BitVec 4) := if b = 0 ∨ 16 ≤ b.toNat then none else some (b.setWidth 4)

/-- Prescale and divisor of the image. (DEDUCED, log 58.) -/
def imageBase (p : Byte) (d : BitVec 16) : Option (Nat × Nat) := (prescaleOf p).map fun p => (p, max 1 d.toNat)

/-- Trigger level and quiet interval of the image. (DEDUCED, log 58.) -/
def imageDrain (t : Byte) (q : BitVec 16) : Option (Nat × Nat) := (triggerOf t).map fun t => (t, clamp 10 6000 q.toNat)

/-- One drive entry of the image. -/
def imageDrive (m : List Byte) (d : Fin 32) : Option DriveSetup :=
  let k := 19 + 6 * d.val
  match driveLoadOf (BitVec.ofNat 8 d.val) (byteAt m k) (byteAt m (k + 1)) 0 with
  | some l => some { present := l.present, mask := l.mask, interval := (wordAt m (k + 2)).toNat }
  | none => none

/-- One rate class of the image. -/
def imageRate (m : List Byte) (c : Fin 8) : Option Rate :=
  let k := 211 + 8 * c.val
  rateOf (halfAt m k) (halfAt m (k + 2)) (halfAt m (k + 4)) (halfAt m (k + 6))

/-- The shift table of the image; slots beyond the count are not read. -/
def imageShifts (m : List Byte) : Option (List Period) :=
  let n := (byteAt m 275).toNat
  if 4 < n then none else shiftsOf (periodsAt n (m.drop 276))

/-- One kind's prompt times of the image. -/
def imageTimes (m : List Byte) (k : Fin 14) : Option PromptTimes :=
  let o := 288 + 5 * k.val
  promptTimesOf k (halfAt m o).toNat (halfAt m (o + 2)).toNat (byteAt m (o + 4)).toNat

/-- One line slot of the image: a length byte of at most 40 and the line; the bytes after it are not judged.
(DESIGN CHOICE, log 93.) -/
def imageLine (m : List Byte) (o : Nat) : Option (List Segment) :=
  let n := (byteAt m o).toNat
  if 40 < n then none else lineOf (bytesAt m (o + 1) n)

/-- One template of the image. -/
def imageTemplate (m : List Byte) (n : Fin 15) : Option Template :=
  let o := 358 + 82 * n.val
  match imageLine m o, imageLine m (o + 41) with
  | some a, some b => some { line1 := a, line2 := b }
  | _, _ => none

/-- One sweep entry of the image. -/
def imageSweep (m : List Byte) (n : Fin 64) : Option SweepEntry :=
  let o := 1588 + 4 * n.val
  sweepEntryOf (byteAt m o) (byteAt m (o + 1)) (byteAt m (o + 2)) (byteAt m (o + 3))

/-- The audit interval of the image. -/
def imageInterval (m : List Byte) : Option Nat :=
  let n := (halfAt m 1847).toNat
  if n < 100 then none else some n

/-- What a start image gives: settings, drive entries, the lists' modes, and how many items are defaulted. -/
structure Image where
  settings : Settings
  drives : Vector DriveSetup 32
  mode1 : AuditMode
  mode2 : AuditMode
  defaulted : Nat
deriving DecidableEq, Repr

/-- A good image read (R225): every item applied, or its default. The notice mask is not in the image.
(DEDUCED, log 58.) -/
def Image.of (m : List Byte) : Image :=
  let d := defaultSettings
  let mask := item (imageMask (byteAt m 4)) d.mgmtMask
  let pace := item (paceSetOf (byteAt m 5) (byteAt m 6) (byteAt m 7)) d.pace
  let base := item (imageBase (byteAt m 10) (halfAt m 11)) (d.prescale, d.divisor)
  let drain := item (imageDrain (byteAt m 13) (halfAt m 14)) (d.trigger, d.quiet)
  let drives := items 32 (imageDrive m) fun _ => defaultDrive
  let rates := items 8 (imageRate m) fun _ => defaultRate
  let shifts := item (imageShifts m) d.shifts
  let times := items 14 (imageTimes m) d.times.get
  let templates := items 15 (imageTemplate m) d.templates.get
  let sweep := items 64 (imageSweep m) fun _ => SweepEntry.fin
  let mode1 := item (auditModeOf (byteAt m 1845)) .off
  let mode2 := item (auditModeOf (byteAt m 1846)) .off
  let interval := item (imageInterval m) d.auditInterval
  { settings :=
      { d with mgmtMask := mask.1, pace := pace.1, tenure := clamp 50 600 (halfAt m 8).toNat, prescale := base.1.1,
               divisor := base.1.2, trigger := drain.1.1, quiet := drain.1.2, mountLimit := (halfAt m 16).toNat,
               failLimit := (byteAt m 18).toNat, rates := rates.1, shifts := shifts.1, times := times.1,
               templates := templates.1, sweep := sweep.1, l2 := (byteAt m 1844).toNat, auditInterval := interval.1 },
    drives := drives.1, mode1 := mode1.1, mode2 := mode2.1,
    defaulted := mask.2 + pace.2 + base.2 + drain.2 + drives.2 + rates.2 + shifts.2 + times.2 + templates.2 + sweep.2
      + mode1.2 + mode2.2 + interval.2 }

/-- Every item at its default (R225). -/
def Image.default : Image where
  settings := defaultSettings
  drives := Vector.replicate 32 defaultDrive
  mode1 := .off
  mode2 := .off
  defaulted := 0

/-- The image's marker, length and check word are right (R224, R235). (DEDUCED, log 58.) -/
def imageGood (m : List Byte) : Bool :=
  m.length = 1852 && bytesAt m 0 2 = [0x4C#8, 0x36#8] && (halfAt m 2).toNat = 1846
    && beValue (bytesAt m 1850 2) = (crc16 (m.take 1850)).toNat

/-- The library becomes LOADING with an image's items (R224 step 3): IMAGE-BAD is set first, while the library is
STARTING, so no NOTICE is sent of it (R221). (DEDUCED, log 58.) -/
def State.applyImage (i : Image) (o : ImageOutcome) (bad : Bool) (s : State) : State :=
  let s : State := { s with env.set := i.settings }
  s.plantly fun e x =>
    let x := if bad then x.setFlag e .imageBad else x
    let y : Plant :=
      { x with dru := { drives := i.drives.map Drive.boot },
               adu := { list1 := ListCtx.boot i.mode1, list2 := ListCtx.boot i.mode2, timer := none },
               mgu := { x.mgu with lib := .loading, imageStart := none, outcome := o } }
    (y.judgeViews e).judgeTimer e

/-- A bad image: no item of it is used (R224). -/
def State.badImage (s : State) : State := s.applyImage Image.default .badImage true

/-- IMAGE_READ (R224, R225): the completion of the image read; outside the image read it is not this event. -/
def execImageRead (image : List Byte) (s : State) : Host.Outcome State Fault Refusal :=
  s.run fun s =>
    match s.plant.mgu.imageStart with
    | some t =>
      if imageGood image && elapsed t s.env.tick ≤ 50 then
        let i := Image.of image
        s.applyImage i (.used i.defaulted) (i.defaulted ≠ 0)
      else s.badImage
    | none => s

/-- IMAGE_READ_TIMEOUT (R224): the expiry of the 50 ticks of an image read. (DESIGN CHOICE, log 22.) -/
def execImageReadTimeout (s : State) : Host.Outcome State Fault Refusal :=
  s.run fun s =>
    match s.plant.mgu.imageStart with
    | some t => if reached s.env.tick (t + ticks 50) then s.badImage else s
    | none => s

/-! ### Power-on and hard reset (R223) -/

/-- STARTING begins over a fence: every block at its reset values, the strap sampled, and, with the strap set, every item
at its default in the same action. The commands that wait are outside the part and stay. -/
def State.starting (f : Fence) (strap : Bool) (s : State) : State :=
  let y : State :=
    { env := Env.boot f strap, oiu := Oiu.boot, acu := Acu.boot,
      plant := Plant.boot s.plant.out s.plant.tcu.choices, pending := s.pending }
  if strap then y.applyImage Image.default .byStrap false else y

/-- POWER_ON (R141, R223). (DESIGN CHOICE, logs 2 and 35.) -/
def execPowerOn (strap : Bool) (s : State) : Host.Outcome State Fault Refusal :=
  .next (s.starting (Fence.powerOn s.env.fence) strap)

/-- HARD_RESET: the release of the reset pin (R141, R223). (DESIGN CHOICE, logs 2 and 35.) -/
def execHardReset (strap : Bool) (s : State) : Host.Outcome State Fault Refusal :=
  .next (s.starting (Fence.hardReset s.env.fence) strap)

/-- RESET_PIN_ASSERTED (R223): the part is held until the pin's release. -/
def execResetPinAsserted (s : State) : Host.Outcome State Fault Refusal := .next { s with env.resetPin := true }

/-! ### The clock (R171, R172) -/

/-- One tick: the tick count and the sub-count rise, and the minute with the sub-count's return to 0.
(DESIGN CHOICE, log 4.) -/
def Env.ticked (e : Env) : Env :=
  if e.sub + 1 < 600 then { e with tick := e.tick + 1, sub := e.sub + 1 }
  else { e with tick := e.tick + 1, sub := 0, minute := (e.minute + 1) % 1440 }

/-- TICK (R171, R172). (DESIGN CHOICE, logs 1 and 4.) -/
def execTick (s : State) : Host.Outcome State Fault Refusal := s.run fun s => { s with env := s.env.ticked }

/-- DAY_CLOCK_MINUTE (R172): the tick at which the sub-count would reach 600; at any other sub-count it is not this
event. (DESIGN CHOICE, logs 1 and 4.) -/
def execDayClockMinute (s : State) : Host.Outcome State Fault Refusal :=
  s.run fun s => if 599 ≤ s.env.sub then { s with env := s.env.ticked } else s

end Sys2Proof.Machine
end

