-- ==== Sys2Proof/Machine/Restart.lean ====
section
/-!
DEFINITION. RESTART, the warm restart: what each block does in its one action (R26, R34, R54, R113, R132, R170, R192,
R210, R227).
-/
namespace Sys2Proof.Machine

/-! ### TCU: every task ends (R54, R192) -/

/-- A task that a restart closes: MOUNTED, or UNLOADING with no pending final status. -/
def Task.closesAtRestart (k : Task) : Bool := k.state = .mounted || (k.state = .unloading && k.pending.isNone)

/-- The ending of one task: its close, its order's status, its requester's; its record is free. -/
def restartTask (e : Env) (t : TaskNo) (a : Acu) (x : Plant) : Acu × Plant :=
  match x.task? t with
  | none => (a, x)
  | some k =>
    let c : Acu × Plant :=
      match x.boundDrive t with
      | some d => if k.closesAtRestart then closeMount e t d ⟨0, 0, 0⟩ a (x.tag t .restartClosed) else (a, x)
      | none => (a, x)
    let y := (c.2.answer t (.ended .libraryRestarted k.tags)).answerRequester t (some .libraryRestarted)
    (c.1, y.putTask t none)

/-- Every task, in task-number order; the waiting RECOVERY requests and the rack-full mark go. -/
def restartTasks (e : Env) (a : Acu) (x : Plant) : Acu × Plant :=
  let c := (List.finRange 48).foldl (fun (c : Acu × Plant) t => restartTask e t c.1 c.2) (a, x)
  (c.1, { c.2 with tcu.requests := [], tcu.rackFull := false })

/-! ### OIU: the queues are emptied (R34) -/

/-- Every queued order is answered LIBRARY RESTARTED, path 0 first, oldest first. -/
def State.flushQueues (s : State) : State :=
  let y := [(0 : Path), 1, 2, 3].foldl (fun (y : State) p =>
    (s.queue p).foldl (fun (z : State) o => z.toOrder { path := p, tag := o.tag, sized := true } .last (.ended .libraryRestarted 0)) y) s
  { y with oiu.queues := Vector.replicate 4 [] }

/-- Every PACED path is sent RESUME and is FLOWING. -/
def State.resumePaths (s : State) : State :=
  let y := [(0 : Path), 1, 2, 3].foldl (fun (y : State) p => if s.oiu.paced.get p then y.pathStatus p .resume else y) s
  { y with oiu.paced := Vector.replicate 4 false }

/-! ### LTU (R26) -/

/-- A volume after a restart: unbound, and nowhere where a gripper, the handoff rack or the entry rack held it. -/
def Volume.restarted (v : Volume) : Volume :=
  let u := { v with bound := none }
  match v.loc with
  | .gripper _ | .handoff _ => u.at_ .unknown
  | .entry _ => u.at_ .outside
  | _ => u

/-- A cell after a restart: a reservation is given up; an entry at its default is not listed. -/
def CellRec.restarted (r : CellRec) : Option CellRec :=
  match r.occ with
  | .reserved _ _ => if r.homeOf = none then none else some { r with occ := .empty }
  | _ => some r

/-- A service slot after a restart: a reservation is given up, an occupied slot loses its task. -/
def Slot.restarted (r : Slot) : Slot :=
  match r.state with
  | .occupied => { r with task := none }
  | _ => Slot.clear

def Ltu.restarted (l : Ltu) : Ltu where
  volumes := l.volumes.map Volume.restarted
  cells := l.cells.filterMap CellRec.restarted
  entry := Vector.replicate 8 Slot.clear
  service := l.service.map Slot.restarted
  pool := l.pool

/-! ### MOU (R113) -/

/-- An accessor context after a restart: the next tag, the late count and the last fault are kept. -/
def AccCtx.restarted (c : AccCtx) : AccCtx :=
  { AccCtx.boot with nextTag := c.nextTag, late := c.late, lastFault := c.lastFault }

/-- A handoff slot after a restart: an occupied slot holds UNKNOWN REEL for no task. -/
def Slot.handoffRestarted (r : Slot) : Slot :=
  match r.state with
  | .occupied => Slot.hold .unknown none
  | _ => Slot.clear

/-- DESIGN CHOICE, log 26. -/
def Mou.restarted (m : Mou) : Mou :=
  { m with accA := m.accA.restarted, accB := m.accB.restarted, queue := [], holder := none, claimant := none,
           tenureEnd := none, expired := false, handoff := m.handoff.map Slot.handoffRestarted }

/-! ### DRU (R132) -/

/-- A drive entry after a restart, by the state events act on. -/
def Drive.restarted (r : Drive) : Drive :=
  let y := { r with bound := none, mountOpen := false, rethreadDone := false }
  match r.eff with
  | .reserved => ({ y with volume := none, unloadSeen := false } : Drive).emptied
  | .cleanDue => { y with volume := none, unloadSeen := false }
  | .threading => y.setEff .heldReel
  | .mounted | .unloading => ({ y with unloadSeen := false } : Drive).setEff .heldReel
  | .unloaded => ({ y with unloadSeen := true } : Drive).setEff .heldReel
  | .empty | .offline | .absent | .heldReel | .faulted => y

/-- One drive at a restart: a THREADING drive whose unload has not been seen is sent UNLOAD, and a CLEAN-DUE drive asks
for its CLEAN prompt anew. -/
def Plant.restartDrive (e : Env) (d : DriveNo) (x : Plant) : Plant :=
  let r := x.drive d
  let y := x.updDrive d Drive.restarted
  match r.eff with
  | .threading => if r.unloadSeen then y else y.driveCommand d .unload
  | .cleanDue => y.ask e .clean { drive := some d } (.drive d)
  | _ => y

/-- Every drive after a restart; the CLEAN prompts are asked for by rising drive number. (DESIGN CHOICE, log 59.) -/
def Plant.restartDrives (e : Env) (x : Plant) : Plant := (List.finRange 32).foldl (fun y d => y.restartDrive e d) x

/-! ### PRU, ADU, MGU (R170, R210, R227) -/

/-- The prompt table and the backlog are emptied; the number last given is kept (R170). -/
def Plant.restartPrompts (e : Env) (x : Plant) : Plant :=
  ({ x with pru.table := [], pru.backlog := [], pru.later := none } : Plant).judgeViews e

/-- A list after a restart (R210). -/
def ListCtx.restarted (c : ListCtx) : ListCtx := { c with state := .idle, pos := none, live := false, startPending := false }

/-- The plant after TCU and OIU have done their part: the tables, the motion with its RECOVERs, the prompts, the drives
and the lists. (DESIGN CHOICE, log 59.) -/
def Plant.restartBlocks (e : Env) (x : Plant) : Plant :=
  let y := { x with ltu := x.ltu.restarted, mou := x.mou.restarted }
  let z := (((y.recover e .A).recover e .B).restartPrompts e).restartDrives e
  { z with adu.list1 := z.adu.list1.restarted, adu.list2 := z.adu.list2.restarted }

/-- An accepted RESTART, in the order of its statuses (R227). The mounts are closed, with the RETIRE prompt of a volume that
becomes WORN (R192), before PRU empties its table, which then loses that prompt. (DESIGN CHOICE, log 59.) -/
def State.restarted (h : Hdr) (s : State) : State :=
  let s : State := { s with plant.mgu := { s.plant.mgu with lib := .restarting, ansA := false, ansB := false } }
  let s := s.closing restartTasks
  let s := s.flushQueues.resumePaths
  (s.plantly fun e x => x.restartBlocks e).accept h

/-- RESTART (R227). (DEDUCED, log 27; DESIGN CHOICE, log 59.) -/
def execRestart (h : Hdr) (s : State) : Host.Outcome State Fault Refusal :=
  s.mgmt h fun s =>
    match s.plant.mgu.lib with
    | .running | .restarting => s.restarted h
    | .starting | .loading => s.say h .wrongState .nothing

end Sys2Proof.Machine
end

