-- ==== Sys2Proof/Machine/Dispatch.lean ====
section
/-!
DEFINITION. The dispatch: one arm per command, each one direct call of the command's meaning.
-/
namespace Sys2Proof.Machine

def exec (i : Instr) (s : State) : Host.Outcome State Fault Refusal :=
  match i with
  | .powerOn strap => Sys2Proof.Machine.execPowerOn strap s
  | .hardReset strap => Sys2Proof.Machine.execHardReset strap s
  | .imageRead image => Sys2Proof.Machine.execImageRead image s
  | .imageReadTimeout => Sys2Proof.Machine.execImageReadTimeout s
  | .dayClockMinute => Sys2Proof.Machine.execDayClockMinute s
  | .malformedFrame link bytes => Sys2Proof.Machine.execMalformedFrame link bytes s
  | .mount h serial drive intent account => Sys2Proof.Machine.execMount h serial drive intent account s
  | .mountScratch h drive account => Sys2Proof.Machine.execMountScratch h drive account s
  | .dismount h drive => Sys2Proof.Machine.execDismount h drive s
  | .cancel h target => Sys2Proof.Machine.execCancel h target s
  | .queryVolume h serial => Sys2Proof.Machine.execQueryVolume h serial s
  | .queryDrive h drive => Sys2Proof.Machine.execQueryDrive h drive s
  | .admission => Sys2Proof.Machine.execAdmission s
  | .recoveryTaskCreation => Sys2Proof.Machine.execRecoveryTaskCreation s
  | .refileTaskCreation => Sys2Proof.Machine.execRefileTaskCreation s
  | .arrived acc tag => Sys2Proof.Machine.execArrived acc tag s
  | .picked acc tag label => Sys2Proof.Machine.execPicked acc tag label s
  | .gripMiss acc tag => Sys2Proof.Machine.execGripMiss acc tag s
  | .placed acc tag => Sys2Proof.Machine.execPlaced acc tag s
  | .placeBlocked acc tag => Sys2Proof.Machine.execPlaceBlocked acc tag s
  | .readDone acc tag readings => Sys2Proof.Machine.execReadDone acc tag readings s
  | .recovered acc tag bay gripper => Sys2Proof.Machine.execRecovered acc tag bay gripper s
  | .motor acc tag => Sys2Proof.Machine.execMotor acc tag s
  | .labelDevice acc tag => Sys2Proof.Machine.execLabelDevice acc tag s
  | .stepDeadlineExpiry acc => Sys2Proof.Machine.execStepDeadlineExpiry acc s
  | .tenureExpiry => Sys2Proof.Machine.execTenureExpiry s
  | .legPromotion => Sys2Proof.Machine.execLegPromotion s
  | .ready drive => Sys2Proof.Machine.execReady drive s
  | .threadFail drive => Sys2Proof.Machine.execThreadFail drive s
  | .unloaded drive footage blocksRead blocksWritten => Sys2Proof.Machine.execUnloaded drive footage blocksRead blocksWritten s
  | .online drive => Sys2Proof.Machine.execOnline drive s
  | .offline drive => Sys2Proof.Machine.execOffline drive s
  | .check drive => Sys2Proof.Machine.execCheck drive s
  | .doneKey k => Sys2Proof.Machine.execDoneKey k s
  | .cancelKey k => Sys2Proof.Machine.execCancelKey k s
  | .skipKey k => Sys2Proof.Machine.execSkipKey k s
  | .holdKey k => Sys2Proof.Machine.execHoldKey k s
  | .enterKey k => Sys2Proof.Machine.execEnterKey k s
  | .switchRun k => Sys2Proof.Machine.execSwitchRun k s
  | .switchMaintain k => Sys2Proof.Machine.execSwitchMaintain k s
  | .promptEscalation prompt => Sys2Proof.Machine.execPromptEscalation prompt s
  | .promptDeadlineExpiry prompt => Sys2Proof.Machine.execPromptDeadlineExpiry prompt s
  | .doorOpen => Sys2Proof.Machine.execDoorOpen s
  | .doorClosed => Sys2Proof.Machine.execDoorClosed s
  | .quietTimerExpiry => Sys2Proof.Machine.execQuietTimerExpiry s
  | .persistCompletion => Sys2Proof.Machine.execPersistCompletion s
  | .auditIntervalExpiry => Sys2Proof.Machine.execAuditIntervalExpiry s
  | .unknownCommand h code => Sys2Proof.Machine.execUnknownCommand h code s
  | .loadVolume h f => Sys2Proof.Machine.execLoadVolume h f s
  | .deleteVolume h serial => Sys2Proof.Machine.execDeleteVolume h serial s
  | .setVolumeFlags h serial setFlags clearFlags => Sys2Proof.Machine.execSetVolumeFlags h serial setFlags clearFlags s
  | .readVolume h serial => Sys2Proof.Machine.execReadVolume h serial s
  | .readNextVolume h serial => Sys2Proof.Machine.execReadNextVolume h serial s
  | .readCell h cell => Sys2Proof.Machine.execReadCell h cell s
  | .readSlot h rack slot => Sys2Proof.Machine.execReadSlot h rack slot s
  | .readPool h index => Sys2Proof.Machine.execReadPool h index s
  | .fenceWrite h f => Sys2Proof.Machine.execFenceWrite h f s
  | .fencePersist h f => Sys2Proof.Machine.execFencePersist h f s
  | .readFence h => Sys2Proof.Machine.execReadFence h s
  | .setWearLimits h mountLimit failLimit => Sys2Proof.Machine.execSetWearLimits h mountLimit failLimit s
  | .readWearLimits h => Sys2Proof.Machine.execReadWearLimits h s
  | .setPace h letter n hyst => Sys2Proof.Machine.execSetPace h letter n hyst s
  | .eject h serial => Sys2Proof.Machine.execEject h serial s
  | .readTask h record => Sys2Proof.Machine.execReadTask h record s
  | .setTenure h tenure => Sys2Proof.Machine.execSetTenure h tenure s
  | .readAccessor h acc => Sys2Proof.Machine.execReadAccessor h acc s
  | .readLeg h index => Sys2Proof.Machine.execReadLeg h index s
  | .loadDrive h drive present mask interval clear => Sys2Proof.Machine.execLoadDrive h drive present mask interval clear s
  | .readDrive h drive => Sys2Proof.Machine.execReadDrive h drive s
  | .setPromptTimes h kind deadline escalation urgency => Sys2Proof.Machine.execSetPromptTimes h kind deadline escalation urgency s
  | .loadTemplate h number line1 line2 => Sys2Proof.Machine.execLoadTemplate h number line1 line2 s
  | .readPrompt h collection index => Sys2Proof.Machine.execReadPrompt h collection index s
  | .readConsole h console => Sys2Proof.Machine.execReadConsole h console s
  | .readTemplate h number => Sys2Proof.Machine.execReadTemplate h number s
  | .readPromptTimes h kind => Sys2Proof.Machine.execReadPromptTimes h kind s
  | .setTimeBase h prescale divisor => Sys2Proof.Machine.execSetTimeBase h prescale divisor s
  | .setClock h minute => Sys2Proof.Machine.execSetClock h minute s
  | .readClock h => Sys2Proof.Machine.execReadClock h s
  | .loadRate h cls fee granule price wear => Sys2Proof.Machine.execLoadRate h cls fee granule price wear s
  | .readRate h cls => Sys2Proof.Machine.execReadRate h cls s
  | .loadShifts h periods => Sys2Proof.Machine.execLoadShifts h periods s
  | .readShifts h => Sys2Proof.Machine.execReadShifts h s
  | .loadAccount h account cls allowance => Sys2Proof.Machine.execLoadAccount h account cls allowance s
  | .clearAccount h scope account => Sys2Proof.Machine.execClearAccount h scope account s
  | .readAccount h account => Sys2Proof.Machine.execReadAccount h account s
  | .setDrain h trigger quiet => Sys2Proof.Machine.execSetDrain h trigger quiet s
  | .readDrain h => Sys2Proof.Machine.execReadDrain h s
  | .take h k given expected => Sys2Proof.Machine.execTake h k given expected s
  | .readRecord h index => Sys2Proof.Machine.execReadRecord h index s
  | .loadSweep h entry kind bay first last => Sys2Proof.Machine.execLoadSweep h entry kind bay first last s
  | .setSweepBoundary h l2 => Sys2Proof.Machine.execSetSweepBoundary h l2 s
  | .setAuditMode h list mode => Sys2Proof.Machine.execSetAuditMode h list mode s
  | .startSweep h list => Sys2Proof.Machine.execStartSweep h list s
  | .setAuditInterval h interval => Sys2Proof.Machine.execSetAuditInterval h interval s
  | .readSweepEntry h entry => Sys2Proof.Machine.execReadSweepEntry h entry s
  | .readSweepList h list => Sys2Proof.Machine.execReadSweepList h list s
  | .readSweepTimer h => Sys2Proof.Machine.execReadSweepTimer h s
  | .readLink h => Sys2Proof.Machine.execReadLink h s
  | .clearLinkCounters h name => Sys2Proof.Machine.execClearLinkCounters h name s
  | .setManagementPaths h mask => Sys2Proof.Machine.execSetManagementPaths h mask s
  | .readState h => Sys2Proof.Machine.execReadState h s
  | .readFlags h => Sys2Proof.Machine.execReadFlags h s
  | .clearFlags h pairs => Sys2Proof.Machine.execClearFlags h pairs s
  | .setNoticeMask h marks => Sys2Proof.Machine.execSetNoticeMask h marks s
  | .libraryStart h => Sys2Proof.Machine.execLibraryStart h s
  | .restart h => Sys2Proof.Machine.execRestart h s
  | .tick => Sys2Proof.Machine.execTick s
  | .resetPinAsserted => Sys2Proof.Machine.execResetPinAsserted s
  | .notPermitted h code => Sys2Proof.Machine.execNotPermitted h code s
  | .badOrder h kind => Sys2Proof.Machine.execBadOrder h kind s

end Sys2Proof.Machine
end

