-- ==== Sys2Proof/Machine/Step.lean ====
section
/-!
DEFINITION. One step: the command at the front of the queue is taken.
-/
namespace Sys2Proof.Machine

/-- The command at the front of the queue is executed on the state with the rest of the queue. On an empty queue the
part idles: time passes by its own commands, TICK and DAY_CLOCK_MINUTE (DESIGN CHOICE).
(DESIGN CHOICE, logs 1 and 63.) -/
def step (s : State) : Host.Outcome State Fault Refusal :=
  match s.pending with
  | [] => .next s
  | c :: rest => exec c { s with pending := rest }

/-- The command a table word spells, put at the front of the queue; no word spells one. (DESIGN CHOICE, log 62.) -/
def State.withFetchWord (s : State) (nbits w : Nat) : State :=
  match decodeTableWord nbits w with
  | some c => { s with pending := c :: s.pending }
  | none => s

end Sys2Proof.Machine
end

