-- ==== Sys2Proof/Machine/Formats.lean ====
section
/-!
DEFINITION. The bytes of every frame the part sends: statuses, management replies, records, notices, steps, drive
commands, displays and beeps (R229–R233, and the code tables of Chapter 11).
-/
namespace Sys2Proof.Machine

/-! ### Fields (R229, R233) -/

/-- An optional field: absent as all bytes FFh. -/
def optField {α : Type} (w : Nat) (f : α → List Byte) : Option α → List Byte
  | some a => f a
  | none => List.replicate w 0xFF#8

/-- An optional number. -/
def optNat (w : Nat) (o : Option Nat) : List Byte := optField w (beBytes w) o

def optSerial (o : Option Serial) : List Byte := optField 6 serialBytes o

/-- A mark, as bit 0 of its byte. -/
def markByte (b : Bool) : List Byte := [if b then 1#8 else 0#8]

/-- A yes-or-no field: the position of its value in that list (R233). (DEDUCED, log 5.) -/
def yesByte (b : Bool) : List Byte := [if b then 0#8 else 1#8]

/-- Marks as the bits of a number, the first at bit 0. -/
def markBits : List Bool → Nat
  | [] => 0
  | b :: bs => (if b then 1 else 0) + 2 * markBits bs

def accNumber : Acc → Nat
  | .A => 0
  | .B => 1

/-- A location: kind and number (R232). -/
def locationBytes : Location → List Byte
  | .cell c => beBytes 1 0 ++ beBytes 2 c
  | .drive d => beBytes 1 1 ++ beBytes 2 d.val
  | .gripper a => beBytes 1 2 ++ beBytes 2 (accNumber a)
  | .handoff h => beBytes 1 3 ++ beBytes 2 h.val
  | .entry n => beBytes 1 4 ++ beBytes 2 n.val
  | .service n => beBytes 1 5 ++ beBytes 2 n.val
  | .outside => beBytes 1 6 ++ beBytes 2 0xFFFF
  | .unknown => beBytes 1 7 ++ beBytes 2 0xFFFF

def volClassNumber : VolClass → Nat
  | .resident => 0
  | .visitor => 1

def ringNumber : Ring → Nat
  | .ringless => 0
  | .ringed => 1

def intentNumber : Intent → Nat
  | .read => 0
  | .write => 1

/-- The eleven drive states' codes (R232). -/
def DriveState.code : DriveState → Nat
  | .absent => 0 | .offline => 1 | .empty => 2 | .cleanDue => 3 | .reserved => 4 | .threading => 5 | .mounted => 6
  | .unloading => 7 | .unloaded => 8 | .faulted => 9 | .heldReel => 10

/-- Wait reason codes (11.5). -/
def WaitReason.code : WaitReason → Nat
  | .clean => 1 | .handoff => 2 | .service => 3 | .driveFree => 4 | .zone => 5

/-- Accessor fault codes (11.5). -/
def FaultCode.code : FaultCode → Nat
  | .motor => 1 | .labelDevice => 2 | .timeout => 3 | .position => 4

/-! ### Statuses (R232, 11.5) -/

/-- The status code of a final status that ends an admitted order. -/
def Final.code : Final → Nat
  | .cancelled => 0x31 | .driveOffline => 0x32 | .driveOccupied => 0x33 | .tableFull => 0x34 | .volumeInUse => 0x35
  | .fenced => 0x36 | .worn => 0x37 | .noScratch => 0x38 | .allowanceRefused => 0x39 | .operatorCancelled => 0x3A
  | .operatorTimeout => 0x3B | .mechanismFailed => 0x3C | .libraryRestarted => 0x3D | .noDrive => 0x22
  | .notReachable => 0x23

/-- The final statuses that carry condition tags (R232). -/
def Final.tagged : Final → Bool
  | .cancelled | .fenced | .worn | .allowanceRefused | .operatorCancelled | .operatorTimeout | .mechanismFailed
  | .libraryRestarted => true
  | .noDrive | .notReachable | .driveOffline | .driveOccupied | .tableFull | .volumeInUse | .noScratch => false

def Status.code : Status → Nat
  | .queued _ => 0x01 | .admitted _ _ => 0x02 | .waiting _ => 0x03 | .operator _ => 0x04 | .moving => 0x05
  | .pace => 0x08 | .resume => 0x09 | .notReady => 0x10 | .badOrder => 0x11 | .tagInUse => 0x12 | .busy => 0x13
  | .infoVolume _ | .infoDrive _ => 0x20
  | .notFound => 0x21 | .noDrive => 0x22 | .notReachable => 0x23 | .notMounted => 0x24 | .alreadyDismounting => 0x25
  | .dismounted _ => 0x26 | .cancelTaken => 0x27 | .tooLate => 0x28 | .alreadyEnding => 0x29
  | .mounted _ _ _ => 0x30
  | .ended f _ => f.code
  | .dismountEnded f _ => f.code

/-- INFO for QUERY VOLUME (R232). -/
def VolumeInfo.bytes (i : VolumeInfo) : List Byte :=
  beBytes 1 (volClassNumber i.cls) ++ locationBytes i.loc ++ beBytes 1 (ringNumber i.ring)
    ++ beBytes 1 (markBits [i.scratch, i.watch, i.ringPull, i.misfiled, i.worn, i.fenced, i.bound])
    ++ beBytes 2 i.mounts ++ beBytes 1 i.fails

/-- INFO for QUERY DRIVE (R232). -/
def DriveInfo.bytes (i : DriveInfo) : List Byte :=
  beBytes 1 i.state.code ++ optNat 1 (i.preFault.map (·.code)) ++ optSerial i.volume
    ++ beBytes 1 (markBits [i.bound, i.offlinePending]) ++ beBytes 1 i.mask.toNat

/-- The contents a status carries (R232). -/
def Status.contents : Status → List Byte
  | .queued n => beBytes 1 n
  | .admitted t s => beBytes 1 t.val ++ serialBytes s
  | .waiting r => beBytes 1 r.code
  | .operator k => beBytes 1 k.index.val
  | .mounted s d tags => serialBytes s ++ beBytes 1 d.val ++ beBytes 2 tags.toNat
  | .infoVolume i => i.bytes
  | .infoDrive i => i.bytes
  | .ended f tags => if f.tagged then beBytes 2 tags.toNat else []
  | .dismounted d | .dismountEnded _ d => beBytes 1 d.val
  | .moving | .pace | .resume | .notReady | .badOrder | .tagInUse | .busy | .notFound | .noDrive | .notReachable
  | .notMounted | .alreadyDismounting | .cancelTaken | .tooLate | .alreadyEnding => []

def Mark.code : Mark → Nat
  | .interim => 0
  | .last => 1
  | .path => 2

/-- A STATUS payload (R232). -/
def statusPayload (tag : Option Byte) (m : Mark) (s : Status) : List Byte :=
  [tag.getD 0] ++ beBytes 1 m.code ++ beBytes 1 s.code ++ s.contents

/-! ### Contents of replies (R233) -/

/-- The content of a slot: UNKNOWN REEL has no form on the link that a rule gives. (DESIGN CHOICE, log 19.) -/
def reelBytes : Reel → List Byte
  | .known s => serialBytes s
  | .unknown => beBytes 6 Config.unknownReelBytes.toNat

/-- DESIGN CHOICE, log 20. -/
def Gripper.bytes : Gripper → List Byte
  | .known s => serialBytes s
  | .unknownReel => beBytes 6 Config.unknownReelBytes.toNat
  | .empty => beBytes 6 (Config.gripperBytes false).toNat
  | .notKnown => beBytes 6 (Config.gripperBytes true).toNat

/-- The fields of READ VOLUME (R5), the marks as R232 places them. -/
def volumeFields (v : Volume) (fenced : Bool) : List (List Byte) :=
  [serialBytes v.serial, beBytes 1 (volClassNumber v.cls), optNat 2 v.home, locationBytes v.loc,
   beBytes 1 (ringNumber v.ring),
   beBytes 1 (markBits [v.scratch, v.watch, v.ringPull, v.misfiled, v.worn, fenced, v.bound.isSome]),
   beBytes 2 v.mounts, beBytes 4 v.footage, beBytes 1 v.fails, yesByte v.refilePending,
   optNat 1 (v.bound.map (·.val))]

/-- The fields of READ CELL (R24). -/
def cellFields (c : CellRec) : List (List Byte) :=
  match c.occ with
  | .empty => [beBytes 1 0, optSerial none, optSerial c.homeOf, optNat 1 none]
  | .occupied s => [beBytes 1 1, optSerial (some s), optSerial c.homeOf, optNat 1 none]
  | .reserved s t => [beBytes 1 2, optSerial s, optSerial c.homeOf, optNat 1 (some t.val)]
  | .foreign => [beBytes 1 3, optSerial none, optSerial c.homeOf, optNat 1 none]
  | .suspect => [beBytes 1 4, optSerial none, optSerial c.homeOf, optNat 1 none]

/-- The fields of READ SLOT (1.5). -/
def slotFields (s : Slot) : List (List Byte) :=
  [beBytes 1 (match s.state with | .empty => 0 | .reserved => 1 | .occupied => 2), optField 6 reelBytes s.content,
   optNat 1 (s.task.map (·.val))]

def LockMode.code : LockMode → Nat
  | .unlocked => 0 | .keyed => 1 | .held => 2 | .permanent => 3

/-- The fields of READ FENCE (R134, R140). -/
def fenceFields (f : FenceCopy) (left : Option Nat) : List (List Byte) :=
  (f.ranges.toList.flatMap fun r => [serialBytes r.first, serialBytes r.last, yesByte r.enabled])
    ++ [markByte f.invert, beBytes 1 f.mode.code, yesByte left.isSome, optNat 1 left]

def taskKindNumber : TaskKind → Nat
  | .mount => 0 | .mountScratch => 1 | .enter => 2 | .eject => 3 | .refile => 4 | .recovery => 5

/-- An origin: its kind, and path and tag for an order. -/
def originBytes : Origin → List Byte
  | .path p t => [0#8, BitVec.ofNat 8 p.val, t]
  | .operator => [1#8, 0xFF#8, 0xFF#8]
  | .management => [2#8, 0xFF#8, 0xFF#8]
  | .audit => [3#8, 0xFF#8, 0xFF#8]
  | .internal => [4#8, 0xFF#8, 0xFF#8]

def TaskState.number : TaskState → Nat
  | .admitted => 0 | .waiting => 1 | .opwait => 2 | .moving => 3 | .threading => 4 | .mounted => 5 | .unloading => 6
  | .demounting => 7 | .ended => 8

/-- The fields of READ TASK (R50). (DESIGN CHOICE, log 56.) -/
def taskFields (k : Task) (legs : List Nat) : List (List Byte) :=
  [beBytes 1 (taskKindNumber k.kind), originBytes k.origin, yesByte k.answered, optSerial k.serial,
   optNat 1 (k.drive.map (·.val)), beBytes 1 (intentNumber k.intent), [k.account], beBytes 1 k.state.number,
   optNat 1 (k.wait.map (·.code)), beBytes 2 k.tags.toNat,
   optField 1 (fun n => [Config.legReference n]) legs[0]?, optField 1 (fun n => [Config.legReference n]) legs[1]?,
   optNat 1 (k.handoff.map (·.val)), optNat 1 (k.service.map (·.val)), optNat 2 k.cell, optNat 2 k.prompt,
   optField 2 (fun r : Path × Byte => [BitVec.ofNat 8 r.1.val, r.2]) k.requester, optNat 1 (k.pending.map (·.code)),
   beBytes 6 k.admitted.toNat, optNat 6 (k.mountedTick.map (·.toNat)), optNat 2 k.mountedMinute]

def AccState.number : AccState → Nat
  | .unknown => 0 | .idle => 1 | .stepping => 2 | .held => 3 | .faulted => 4 | .recovering => 5

/-- A step's code and target, in three bytes after the code, FFh where the step has fewer (R231). -/
def stepTarget : StepKind → List Byte
  | .travel b => beBytes 1 1 ++ beBytes 1 b ++ [0xFF#8, 0xFF#8]
  | .pick b p => beBytes 1 2 ++ beBytes 1 b ++ beBytes 1 p ++ [0xFF#8]
  | .place b p => beBytes 1 3 ++ beBytes 1 b ++ beBytes 1 p ++ [0xFF#8]
  | .read b f l => beBytes 1 4 ++ beBytes 1 b ++ beBytes 1 f ++ beBytes 1 l
  | .recover c r => beBytes 1 5 ++ markByte c ++ beBytes 1 r ++ [0xFF#8]

/-- The fields of an accessor's context (R81). (DESIGN CHOICE, log 56.) -/
def accFields (c : AccCtx) (holder claim : Bool) : List (List Byte) :=
  [beBytes 1 c.state.number, optNat 1 c.bay, c.gripper.bytes,
   optField 11 (fun s : InFlight => stepTarget s.kind ++ [s.tag] ++ beBytes 6 s.deadline.toNat) c.step,
   optField 1 (fun l : Leg => [Config.legReference l.id]) c.leg,
   optNat 1 (c.errand.map fun r => match r with | .retreat => 0 | .park => 1), yesByte holder, yesByte claim,
   [c.nextTag], beBytes 2 c.late, optNat 1 (c.lastFault.map (·.code))]

def capableNumber (l : Leg) : Nat := if l.capA && l.capB then 2 else if l.capB then 1 else 0

/-- The code of a leg's class: its position in the list of R56, AUDIT (R102) after it. (DEDUCED, log 82.) -/
def LegClass.code : LegClass → Nat
  | .mount => 0 | .demount => 1 | .service => 2 | .refile => 3 | .recovery => 4 | .audit => 5

/-- The fields of READ LEG in the order of R111: for an audit leg its list, bay, and next and last position; for any other
its owner, class, source, destination, capable accessors, age and steps done. The carry of a wrong reel whose task has
ended has no owner left. (DESIGN CHOICE, log 56; DEDUCED, log 23.) -/
def legFields (l : Leg) : List (List Byte) :=
  let reel (owner : Option TaskNo) : List (List Byte) :=
    [optNat 1 (owner.map (·.val)), beBytes 1 l.cls.code, locationBytes l.src, optField 3 locationBytes l.dst,
     beBytes 1 (capableNumber l), beBytes 6 l.joined.toNat, beBytes 1 l.steps]
  match l.owner with
  | .audit n => [beBytes 1 (match n with | .one => 1 | .two => 2), beBytes 1 l.bay, beBytes 1 l.pos, beBytes 1 l.last]
  | .task t => reel (some t)
  | .found t live => reel (if live then some t else none)

/-- The fields of READ DRIVE (R115). -/
def driveFields (r : Drive) : List (List Byte) :=
  [yesByte r.present, beBytes 1 r.mask.toNat, beBytes 1 r.state.code, optSerial r.volume,
   optNat 1 (r.bound.map (·.val)), yesByte r.mountOpen, beBytes 4 r.footage, beBytes 4 r.interval,
   markByte r.offlinePending, markByte r.rethreadDone, markByte r.unloadSeen, optNat 1 (r.preFault.map (·.code)),
   beBytes 2 r.stray]

/-- A prompt's parameters in the order of R146 note 1, a slot as a location of R232. (DESIGN CHOICE, log 56.) -/
def paramFields (p : Params) : List (List Byte) :=
  [optSerial p.vol, optSerial p.ser2, optNat 1 (p.drive.map (·.val)), optField 3 locationBytes p.slot, optNat 2 p.cell,
   optField 1 (fun a : Byte => [a]) p.account, optNat 1 (p.acc.map accNumber), optNat 1 (p.code.map (·.code))]

def ownerBytes : PromptOwner → List Byte
  | .task t => [0#8] ++ beBytes 1 t.val
  | .drive d => [1#8] ++ beBytes 1 d.val
  | .acc a => [2#8] ++ beBytes 1 (accNumber a)

/-- The fields of an open prompt (R148). (DESIGN CHOICE, log 56.) -/
def promptFields (p : Prompt) : List (List Byte) :=
  [beBytes 2 p.number, beBytes 1 p.kind.index.val] ++ paramFields p.params
    ++ [ownerBytes p.owner, beBytes 1 p.urgency, beBytes 6 p.opened.toNat, beBytes 4 p.order,
        optNat 6 (p.nextEsc.map (·.toNat)), optNat 6 (p.deadline.map (·.toNat)),
        beBytes 1 (markBits [p.skip1, p.skip2])]

/-- The fields of a backlogged request (R148). -/
def requestFields (r : PromptRequest) : List (List Byte) :=
  [beBytes 1 r.kind.index.val] ++ paramFields r.params ++ [ownerBytes r.owner, beBytes 2 r.number]

/-- The fields of a console's context (R158). -/
def consoleFields (c : ConsoleCtx) (k : KeySwitch) : List (List Byte) :=
  [optNat 2 c.shown, optNat 1 c.urgency, optField 40 (fun l => l) (c.lines.map (·.1)),
   optField 40 (fun l => l) (c.lines.map (·.2)),
   beBytes 1 (match k with | .run => 0 | .maintain => 1 | .notKnown => 2)]

/-- An insert's byte less 80h, with its full width (R155, R233). -/
def insertNumber : Insert → Nat × Nat
  | .vol => (0, 6) | .ser2 => (1, 6) | .drv => (2, 2) | .slot => (3, 2) | .cell => (4, 4) | .acct => (5, 3)
  | .acc => (6, 1) | .code => (7, 12) | .opens => (8, 3) | .hold => (9, 4)

/-- A segment in the line form, a cut insert with its width (R233). -/
def segmentBytes : Segment → List Byte
  | .lit t => t
  | .ins i w =>
    if w = (insertNumber i).2 then beBytes 1 (0x80 + (insertNumber i).1)
    else beBytes 1 (0x90 + (insertNumber i).1) ++ beBytes 1 w

/-- A line in the line form: a length byte and the segments (R233). -/
def lineBytes (l : List Segment) : List Byte :=
  beBytes 1 (l.flatMap segmentBytes).length ++ l.flatMap segmentBytes

def prescaleNumber (p : Nat) : Nat := if p = 1 then 0 else if p = 16 then 1 else 2

/-- A usage record in 32 bytes (R233). -/
def usageBytes (u : Usage) : List Byte :=
  beBytes 2 u.seq ++ [u.account] ++ serialBytes u.volume ++ beBytes 1 u.drive.val ++ beBytes 1 u.path.val
    ++ beBytes 1 (intentNumber u.intent) ++ beBytes 2 u.minute ++ beBytes 4 u.occupancy ++ beBytes 2 u.footage
    ++ beBytes 3 u.blocksRead ++ beBytes 3 u.blocksWritten ++ beBytes 1 u.factor ++ beBytes 3 u.charge
    ++ beBytes 2 u.tags.toNat

/-- A sweep entry as READ SWEEP ENTRY shows it (R209): its kind, END 00h and RANGE 01h as bit 0 of R234 has them, and, for a
RANGE, its bay, positions and pause mark, this in a byte of its own. (DESIGN CHOICE, log 89.) -/
def sweepFields : SweepEntry → List (List Byte)
  | .fin => [[0#8]]
  | .range b f l p => [[1#8], beBytes 1 b, beBytes 1 f, beBytes 1 l, markByte p]

def AuditMode.number : AuditMode → Nat
  | .off => 0 | .command => 1 | .door => 2 | .interval => 3 | .intervalOnce => 4

def ListState.number : ListState → Nat
  | .idle => 0 | .running => 1 | .paused => 2 | .suspended => 3

/-- The fields of READ SWEEP LIST (R195, R209). -/
def listFields (c : ListCtx) (l2 : Nat) : List (List Byte) :=
  [beBytes 1 c.mode.number, markByte c.armed, beBytes 1 c.state.number, beBytes 1 c.next, optNat 1 c.pos,
   yesByte c.live, markByte c.startPending, beBytes 2 c.counts.read, beBytes 2 c.counts.missing,
   beBytes 2 c.counts.misfiled, beBytes 2 c.counts.foreign, beBytes 2 c.counts.unreadable, beBytes 2 c.counts.skipped,
   beBytes 1 l2]

def libNumber : LibState → Nat
  | .starting => 0 | .loading => 1 | .running => 2 | .restarting => 3

/-- The outcome of the image read and the number of items defaulted (R218); the number's byte is sent with every outcome, 00h
where there is none. (DESIGN CHOICE, log 56.) -/
def outcomeFields : ImageOutcome → List (List Byte)
  | .used 0 => [[0#8], [0#8]]
  | .used n => [[1#8], beBytes 1 n]
  | .byStrap => [[2#8], [0#8]]
  | .badImage => [[3#8], [0#8]]

/-- The fields of a reply's contents, in the order its rule lists them; READ TASK's FREE is the one byte FFh; READ
ACCESSOR sends the ticks of tenure in two bytes, FFFFh where there are none, and the expired mark after them, whichever holds;
READ FLAGS sends a mark byte before each generation. (DESIGN CHOICE, logs 21 and 56.) -/
def Contents.fields : Contents → List (List Byte)
  | .nothing => []
  | .volume v f => volumeFields v f
  | .cell c => cellFields c
  | .slot s => slotFields s
  | .pool s n => [serialBytes s, beBytes 2 n]
  | .length w n => [beBytes w n]
  | .fence f r => fenceFields f r
  | .wearLimits m f => [beBytes 2 m, beBytes 1 f]
  | .taskNumber t => [beBytes 1 t.val]
  | .task k legs => taskFields k legs
  | .free => [[0xFF#8]]
  | .accessor c holds claims holder claimant tenure expired h1 h2 door legs =>
    accFields c holds claims ++ [optNat 1 (holder.map accNumber), optNat 1 (claimant.map accNumber), optNat 2 tenure,
      markByte expired, beBytes 1 (markBits [h1, h2, door]), beBytes 1 legs]
  | .leg l => legFields l
  | .drive r => driveFields r
  | .prompt p => promptFields p
  | .backlogged r => requestFields r
  | .promptEnd o b => [beBytes 1 o, beBytes 1 b]
  | .console c k => consoleFields c k
  | .template t => [lineBytes t.line1, lineBytes t.line2]
  | .times t => [beBytes 2 t.deadline, beBytes 2 t.escalation, beBytes 1 t.urgency]
  | .clock t m s p d =>
    [beBytes 6 t.toNat, beBytes 2 m, beBytes 2 s, beBytes 1 (prescaleNumber p), beBytes 2 d]
  | .rate r => [beBytes 2 r.fee, beBytes 2 r.granule, beBytes 2 r.price, beBytes 2 r.wear]
  | .shifts l => l.flatMap fun p => [beBytes 2 p.start, beBytes 1 p.factor]
  | .account a =>
    [beBytes 1 a.cls.val, beBytes 4 a.allowance, beBytes 4 a.total, beBytes 2 a.mounts, beBytes 4 a.occupancy,
     markByte a.saturated]
  | .drain t q c n r => [beBytes 1 t, beBytes 2 q, beBytes 1 c, beBytes 2 n, yesByte r.isSome, optNat 2 r]
  | .usage u => [usageBytes u]
  | .taken n m => [beBytes 1 n, beBytes 1 m]
  | .sequence n => [beBytes 2 n]
  | .usageAt u n => [usageBytes u, beBytes 1 n]
  | .sweepEntry e => sweepFields e
  | .sweepList c l => listFields c l
  | .sweepTimer i r => [beBytes 2 i, yesByte r.isSome, optNat 2 r]
  | .link c m => [beBytes 2 c, beBytes 2 m]
  | .state lib a b o mask notices g =>
    [beBytes 1 (libNumber lib), beBytes 1 (markBits [a, b])] ++ outcomeFields o
      ++ [beBytes 1 mask.toNat, beBytes 2 notices.toNat, beBytes 4 g]
  | .flags f g => (f.toList.flatMap fun r => [markByte r.isSet, beBytes 4 r.gen]) ++ [beBytes 4 g]
  | .flagsCleared c s => [beBytes 2 c.toNat, beBytes 2 s.toNat]

/-- Whole fields gathered into parts of at most 45 bytes, which with the part-number byte make 46 (R233). -/
def gather : List Byte → List (List Byte) → List (List Byte)
  | part, [] => [part]
  | part, f :: fs => if part.length + f.length ≤ 45 then gather (part ++ f) fs else part :: gather f fs

/-- Parts with their numbers, from 1. -/
def numberParts (n : Nat) : List (List Byte) → List (List Byte)
  | [] => []
  | p :: ps => (beBytes 1 n ++ p) :: numberParts (n + 1) ps

/-- The contents bytes of each reply a read is answered by: one per line for READ TEMPLATE, else as many as the
contents need (R233). (DESIGN CHOICE, log 56.) -/
def Contents.parts (c : Contents) : List (List Byte) :=
  match c with
  | .template t => numberParts 1 [lineBytes t.line1, lineBytes t.line2]
  | c =>
    let whole := c.fields.flatten
    if whole.length ≤ 46 then [whole] else numberParts 1 (gather [] c.fields)

/-! ### Frames on the C-link -/

/-- Reply codes (11.5). -/
def Reply.code : Reply → Nat
  | .accepted => 0x00 | .data => 0x01 | .record => 0x02 | .ends => 0x03 | .badValue => 0x04 | .notFound => 0x05
  | .bound => 0x06 | .occupied => 0x07 | .noCell => 0x08 | .fenced => 0x09 | .locked => 0x0A | .busy => 0x0B
  | .driveBusy => 0x0C | .location => 0x0D | .sequence => 0x0E | .wrongMode => 0x0F | .wrongState => 0x10
  | .notReady => 0x11 | .notPermitted => 0x12 | .unknownCommand => 0x13 | .tableFull => 0x14

/-- The frames that carry what the part says on the C-link. -/
def CFrame.frames : CFrame → List Frame
  | .status p tag m s => [{ cls := 0x81, address := BitVec.ofNat 8 p.val, payload := statusPayload tag m s }]
  | .reply p tag code c =>
    c.parts.map fun b =>
      { cls := 0x82, address := BitVec.ofNat 8 p.val, payload := tag :: (beBytes 1 code.code ++ b) }
  | .notice p f g set =>
    [{ cls := 0x83, address := BitVec.ofNat 8 p.val,
       payload := beBytes 1 f.index.val ++ beBytes 4 g ++ beBytes 2 set.toNat }]

/-! ### Frames on the M-link (R231) -/

/-- A STEP payload. -/
def stepPayload (k : StepKind) (tag : Byte) : List Byte :=
  match k with
  | .travel b => beBytes 1 1 ++ beBytes 1 b ++ [tag]
  | .pick b p => beBytes 1 2 ++ beBytes 1 b ++ beBytes 1 p ++ [tag]
  | .place b p => beBytes 1 3 ++ beBytes 1 b ++ beBytes 1 p ++ [tag]
  | .read b f l => beBytes 1 4 ++ beBytes 1 b ++ beBytes 1 f ++ beBytes 1 l ++ [tag]
  | .recover c r => beBytes 1 5 ++ markByte c ++ beBytes 1 r ++ [tag]

def accStation : Acc → Byte
  | .A => 1
  | .B => 2

def consoleStation : Console → Byte
  | .one => 4
  | .two => 5

/-- The frame that carries what the part says on the M-link. -/
def MFrame.frame : MFrame → Frame
  | .step a k tag => { cls := 0x11, address := accStation a, payload := stepPayload k tag }
  | .drive d c =>
    { cls := 0x12, address := BitVec.ofNat 8 (32 + d.val),
      payload := [match c with | .unload => 1#8 | .rethread => 2#8] }
  | .display c n k u bell l1 l2 =>
    { cls := 0x13, address := consoleStation c,
      payload := beBytes 2 (n.getD 0) ++ beBytes 1 ((k.map fun k : PromptKind => k.index.val).getD 14) ++ beBytes 1 u
        ++ markByte bell ++ l1 ++ l2 }
  | .beep c => { cls := 0x14, address := consoleStation c, payload := [] }

end Sys2Proof.Machine
end

