-- ==== Sys2Proof/Safety.lean ====
section
/-!
DEFINITION. What a good state and a good run are, in the terms the statements use: when a command is taken, what a reply
or a status adds and nothing else, and the invariants of the fence, the settings, the queues and the accounting.
-/
namespace Sys2Proof.Machine

/-! ### When a command is taken -/

/-- The reset pin is not asserted (R223). -/
def State.free (s : State) : Prop := s.env.resetPin = false

/-- A management command of this header reaches its owner (R216, R217). -/
def State.manages (h : Hdr) (s : State) : Prop :=
  s.free ∧ s.env.set.mgmtMask.getLsbD h.path.val = true ∧ s.plant.mgu.lib ≠ .starting ∧ h.sized = true

/-- An order of this header passes the arrival checks that do not judge its fields (R29 checks 1 and 3, and the length
of check 2). -/
def State.orders (h : Hdr) (s : State) : Prop :=
  s.free ∧ (s.plant.mgu.lib = .running ∨ s.plant.mgu.lib = .restarting) ∧ h.sized = true
    ∧ s.tagLive h.path h.tag = false

/-- Drive reports are taken (R223). -/
def State.reports (s : State) : Prop := s.free ∧ s.plant.mgu.lib ≠ .starting

/-- Keys other than switch reports are taken (R160, R222). -/
def State.keys (s : State) : Prop :=
  s.free ∧ (s.plant.mgu.lib = .running ∨ s.plant.mgu.lib = .restarting)

/-! ### What a frame adds, and nothing else -/

/-- The state with one more frame on the C-link. -/
def State.withC (f : CFrame) (s : State) : State :=
  { s with plant := { s.plant with out := { s.plant.out with c := s.plant.out.c ++ [f] } } }

/-- The state with one more frame on the M-link. -/
def State.withM (f : MFrame) (s : State) : State :=
  { s with plant := { s.plant with out := { s.plant.out with m := s.plant.out.m ++ [f] } } }

/-- The state with a reply to a management command. -/
def State.replied (h : Hdr) (r : Reply) (c : Contents) (s : State) : State := s.withC (.reply h.path h.tag r c)

/-- The state with a final status to an order. -/
def State.finished (h : Hdr) (st : Status) (s : State) : State := s.withC (.status h.path (some h.tag) .last st)

/-- The state with its settings changed. -/
def State.withSet (f : Settings → Settings) (s : State) : State := { s with env := { s.env with set := f s.env.set } }

/-! ### Invariants -/

/-- The fence (R134, R138, R139): the stored copy never holds HELD; a persist's image never does; a PERMANENT stored copy
has no persist beside it and is the working copy; a PERMANENT image is the working copy. -/
def Fence.ok (f : Fence) : Prop :=
  f.stored.mode ≠ .held ∧ (f.stored.mode = .permanent → f.working = f.stored ∧ f.persist = none)
    ∧ ∀ p, f.persist = some p → p.image.mode ≠ .held ∧ (p.image.mode = .permanent → f.working = p.image)

/-- A shift table (R174): at most four periods, lowest start first, each in range. -/
def shiftsOk (l : List Period) : Prop :=
  l.length ≤ 4 ∧ l.Pairwise (fun p q => p.start < q.start) ∧ ∀ p ∈ l, p.start ≤ 1439 ∧ p.factor ≤ 64

/-- A sweep entry (R193). -/
def SweepEntry.ok : SweepEntry → Prop
  | .fin => True
  | .range b f l _ => storageBay b = true ∧ f ≤ l ∧ l ≤ 15

/-- A pace set (R32). -/
def PaceSet.ok : PaceSet → Prop
  | .A | .B | .C => True
  | .D n h => 2 ≤ n ∧ n ≤ 15 ∧ (h = 2 ∨ h = 4 ∨ h = 6)

/-- Every setting stands in the range its rule gives. -/
def Settings.ok (t : Settings) : Prop :=
  t.mgmtMask ≠ 0 ∧ t.pace.ok ∧ (50 ≤ t.tenure ∧ t.tenure ≤ 600) ∧ (t.prescale = 1 ∨ t.prescale = 16 ∨ t.prescale = 256)
    ∧ (1 ≤ t.divisor ∧ t.divisor ≤ 65535) ∧ (t.trigger = 8 ∨ t.trigger = 16 ∨ t.trigger = 32 ∨ t.trigger = 64)
    ∧ (10 ≤ t.quiet ∧ t.quiet ≤ 6000) ∧ t.mountLimit ≤ 65535 ∧ t.failLimit ≤ 255
    ∧ (∀ c : Fin 8, 1 ≤ (t.rates.get c).granule ∧ (t.rates.get c).granule ≤ 36000) ∧ shiftsOk t.shifts
    ∧ (∀ k : Fin 14, (t.times.get k).urgency ≤ 3
        ∧ ((t.times.get k).deadline = 0 ∨ PromptKind.deadlineLoadable k = true))
    ∧ (∀ n : Fin 64, (t.sweep.get n).ok) ∧ t.l2 ≤ 255 ∧ (100 ≤ t.auditInterval ∧ t.auditInterval ≤ 65535)

/-- The day clock, the settings and the link counters stand in their ranges (R171–R174, R214). -/
def Env.ok (e : Env) : Prop :=
  e.minute ≤ 1439 ∧ e.sub ≤ 599 ∧ e.linkC ≤ 65535 ∧ e.linkM ≤ 65535 ∧ e.set.ok

/-- No intake queue holds more than 16 orders (R31). -/
def Oiu.ok (o : Oiu) : Prop := ∀ p : Path, (o.queues.get p).length ≤ 16

/-- Each record's sequence number is one more than the record's before it, from 65,535 to 0, and the next number goes
on from the last (R185). -/
def inSequence : List Usage → Nat → Prop
  | [], _ => True
  | [u], next => next = (u.seq + 1) % 65536
  | u :: v :: l, next => v.seq = (u.seq + 1) % 65536 ∧ inSequence (v :: l) next

/-- The accounts and the buffer (R176, R181, R182, R185): totals and charges in range, records in sequence. -/
def Acu.ok (a : Acu) : Prop :=
  a.nextSeq < 65536 ∧ inSequence a.buffer a.nextSeq ∧ (∀ u ∈ a.buffer, u.charge ≤ 16777215 ∧ u.occupancy ≤ 4294967295)
    ∧ ∀ n : Fin 256, (a.accounts.get n).total ≤ 4294967295 ∧ (a.accounts.get n).mounts ≤ 65535
        ∧ (a.accounts.get n).occupancy ≤ 4294967295

/-- The library tables agree with one another: one entry to a serial, in serial order, at most 4,096 (R4); no two volumes
at one location other than OUTSIDE and UNKNOWN, and the cells naming the volumes in them (R6, R14); the cells naming the
volumes whose home they are (R18); MISFILED and the refile pending mark by R7; the pool exactly the volumes with SCRATCH
(R22). That the cell map lists its cells in rising order, and none that reads as an unlisted one, is the model's own form
(log 8). -/
def Plant.tablesOk (x : Plant) : Prop :=
  (x.ltu.volumes.Pairwise (fun v w => v.serial < w.serial) ∧ x.ltu.volumes.length ≤ 4096)
    ∧ (∀ v ∈ x.ltu.volumes, ∀ w ∈ x.ltu.volumes, v.loc = w.loc → v.loc ≠ .outside → v.loc ≠ .unknown → v.serial = w.serial)
    ∧ (x.ltu.cells.Pairwise (fun r q => r.num < q.num) ∧ ∀ r ∈ x.ltu.cells, r.occ ≠ .empty ∨ r.homeOf ≠ none)
    ∧ (∀ c s, (x.cell c).occ = .occupied s ↔ ∃ v ∈ x.ltu.volumes, v.serial = s ∧ v.loc = .cell c)
    ∧ (∀ c s, (x.cell c).homeOf = some s ↔ ∃ v ∈ x.ltu.volumes, v.serial = s ∧ v.home = some c)
    ∧ (∀ v ∈ x.ltu.volumes, (v.misfiled = true ↔ v.cls = .resident ∧ ∃ c, v.loc = .cell c ∧ v.home ≠ some c)
        ∧ (v.refilePending = true → v.misfiled = true))
    ∧ x.ltu.pool.Nodup ∧ ∀ s, s ∈ x.ltu.pool ↔ ∃ v ∈ x.ltu.volumes, v.serial = s ∧ v.scratch = true

/-- The prompt table and the backlog stay within their sizes (R148, R150), and no request waits on a delivery between
commands (R151); no RECOVERY request waits twice (R44). -/
def Plant.requestsOk (x : Plant) : Prop :=
  x.pru.table.length ≤ 32 ∧ x.pru.backlog.length ≤ 96 ∧ x.pru.later = none ∧ x.tcu.requests.Nodup

/-- Every open prompt has an urgency of at most 3, the table stands in the order of opening (R152, R153), and no number is
held twice by the open prompts and the backlog (R149, R150). -/
def Plant.promptsOk (x : Plant) : Prop :=
  (∀ p ∈ x.pru.table, p.urgency ≤ 3) ∧ x.pru.table.Pairwise (fun p q => p.order < q.order)
    ∧ (∀ p ∈ x.pru.table, p.order < x.pru.openings)
    ∧ (x.pru.table.map (fun p => p.number) ++ x.pru.backlog.map fun r => r.number).Nodup

/-- Every leg of the queue and of the two accessors. -/
def Mou.legs (m : Mou) : List Leg := m.queue ++ m.accA.leg.toList ++ m.accB.leg.toList

/-- The legs are told apart by their numbers, each below the next to be given, and a task that waits for a slot has no leg
(R58, R60, R91). -/
def Plant.legsOk (x : Plant) : Prop :=
  (x.mou.legs.map fun l => l.id).Nodup ∧ (∀ l ∈ x.mou.legs, l.id < x.mou.nextLeg)
    ∧ ∀ t k, x.task? t = some k → k.waiter ≠ none → ∀ l ∈ x.mou.legs, l.owner ≠ .task t

/-- An accessor whose bay lies in 48–79, that is on a TRAVEL into it, or that recovers without having to leave it (mode
STAY), holds the zone grant; one accessor at most does, the holder being one (R94, R107). -/
def Plant.zoneOk (x : Plant) : Prop :=
  ∀ a : Acc, (∀ b, (x.acc a).bay = some b → 48 ≤ b → b ≤ 79 → x.mou.holder = some a)
    ∧ ∀ f, (x.acc a).step = some f →
      (∀ b, f.kind = .travel b → 48 ≤ b → b ≤ 79 → x.mou.holder = some a)
      ∧ ∀ n, f.kind = .recover false n → x.mou.holder = some a

/-- Usage records and open mounts are at most 128 together (R45). -/
def State.bounded (s : State) : Prop :=
  s.acu.buffer.length + ((List.finRange 32).filter fun d => (s.plant.drive d).mountOpen).length ≤ 128

/-- The leg queue stands in queue order (R91). -/
def Plant.queueInOrder (e : Env) (x : Plant) : Prop := x.mou.queue.Pairwise fun l m => l.before e.tick m = true

/-! ### Prompts as they open and as the consoles show them (R149, R152, R158, R159) -/

/-- A prompt as it opens (R149): its kind's urgency, nothing skipped, the present tick, and the next escalation and the
deadline from it, each where the kind has one. -/
def PromptRequest.opened (e : Env) (order : Nat) (r : PromptRequest) : Prompt :=
  let t := e.set.times.get r.kind.index
  { number := r.number, kind := r.kind, params := r.params, owner := r.owner, urgency := t.urgency, opened := e.tick,
    order := order, nextEsc := if t.escalation = 0 then none else some (e.tick + ticks t.escalation),
    escEvery := t.escalation, deadline := if t.deadline = 0 then none else some (e.tick + ticks t.deadline),
    skip1 := false, skip2 := false }

/-- The number is held by an open prompt or a backlogged request (R149). -/
def Pru.holds (n : Nat) (u : Pru) : Prop := (∃ p ∈ u.table, p.number = n) ∨ ∃ r ∈ u.backlog, r.number = n

/-- A backlogged request that goes when one of another kind finds the backlog full: the youngest informational one, else
the youngest FOREIGN request owned by an accessor (R150). -/
def givesWay (u v : List PromptRequest) (d : PromptRequest) : Prop :=
  let informational : PromptRequest → Prop := fun r => r.kind = .wrongReel ∨ r.kind = .watch ∨ r.kind = .retire
  let auditForeign : PromptRequest → Prop := fun r => r.kind = .foreign ∧ ∃ a, r.owner = .acc a
  (informational d ∧ ∀ r ∈ v, ¬ informational r)
    ∨ ((∀ r ∈ u ++ v, ¬ informational r) ∧ auditForeign d ∧ ∀ r ∈ v, ¬ auditForeign r)

/-- The prompt a console shows (R152, R158): of the open ones it has not skipped, that of the highest urgency, and of two of
one urgency the one opened first. -/
def Plant.showsAt (c : Console) (v : Option Prompt) (x : Plant) : Prop :=
  (v = none → ∀ p ∈ x.pru.table, p.skippedAt c = true)
    ∧ ∀ p, v = some p → p ∈ x.pru.table ∧ p.skippedAt c = false
      ∧ ∀ q ∈ x.pru.table, q.skippedAt c = false → q ≠ p → q.urgency < p.urgency ∨ (q.urgency = p.urgency ∧ p.order < q.order)

/-- The context of a console that shows a prompt, or IDLE for none: the lines of its kind's template, or of template 14,
with its parameters (R158). -/
def Plant.contextOf (e : Env) (v : Option Prompt) (x : Plant) : ConsoleCtx :=
  let n := x.pru.table.length + x.pru.backlog.length
  let t := e.set.templates.get ((v.map fun p => ⟨p.kind.index.val, by omega⟩).getD 14)
  let ps := (v.map fun p => p.params).getD {}
  { shown := v.map fun p => p.number, urgency := v.map fun p => p.urgency,
    lines := some (renderLine e n ps t.line1, renderLine e n ps t.line2) }

/-- The frames a judgement sends a console: a DISPLAY where its context changes, with the number, the kind or IDLE, the
urgency, the bell mark at urgency 3 and the lines (R159). -/
def displayed (c : Console) (old new : ConsoleCtx) (v : Option Prompt) : List MFrame :=
  if old = new then []
  else [.display c new.shown (v.map fun p => p.kind) ((v.map fun p => p.urgency).getD 0) (decide (∃ p, v = some p ∧ p.urgency = 3))
    ((new.lines.map fun l => l.1).getD []) ((new.lines.map fun l => l.2).getD [])]

/-! ### What LOAD VOLUME's fields say (R10, R232, R234) -/

/-- The fields of the frame give these values. A number beside OUTSIDE or UNKNOWN is not judged (log 28). -/
def VolumeLoad.givenBy (f : VolumeFields) (l : VolumeLoad) : Prop :=
  serialOf f.serial = some l.serial
    ∧ ((f.cls = 0 ∧ l.cls = .resident) ∨ (f.cls = 1 ∧ l.cls = .visitor))
    ∧ ((f.ring = 0 ∧ l.ring = .ringless) ∨ (f.ring = 1 ∧ l.ring = .ringed))
    ∧ ((f.locKind = 0 ∧ l.loc = .cell f.locNum.toNat) ∨ (f.locKind = 6 ∧ l.loc = .outside)
      ∨ (f.locKind = 7 ∧ l.loc = .unknown))
    ∧ ((f.home = 0xFFFF ∧ l.home = .absent) ∨ (f.home = 0xFFFE ∧ l.home = .choose)
      ∨ (f.home ≠ 0xFFFF ∧ f.home ≠ 0xFFFE ∧ l.home = .cell f.home.toNat))

/-- Checks 2, 3 and 4 of R10 pass: a held entry is unbound and at CELL, OUTSIDE or UNKNOWN, and a new one has room. -/
def Plant.entryLoads (l : VolumeLoad) (x : Plant) : Prop :=
  (∀ v, x.vol? l.serial = some v →
      v.bound = none ∧ ((∃ c, v.loc = .cell c) ∨ v.loc = .outside ∨ v.loc = .unknown))
    ∧ (x.vol? l.serial = none → x.ltu.volumes.length < 4096)

/-- Check 5 of R10 passes: a cell named as the location is valid, not RESERVED, and not OCCUPIED by another volume. -/
def Plant.cellLoads (l : VolumeLoad) (x : Plant) : Prop :=
  ∀ c, l.loc = .cell c → validCell c = true ∧ (∀ v t, (x.cell c).occ ≠ .reserved v t)
    ∧ ∀ v, (x.cell c).occ = .occupied v → v = l.serial

/-- A cell is home to no other volume. -/
def Plant.homeFree (l : VolumeLoad) (c : CellNo) (x : Plant) : Prop :=
  ∀ v, (x.cell c).homeOf = some v → v = l.serial

/-- The home R10 gives (checks 6 to 8 and the sentence after them): none for a VISITOR, which names neither a home nor a
cell; for a RESIDENT the number given; the cell of its location where none is given; or the free-cell choice. -/
def Plant.homeGiven (l : VolumeLoad) (home : Option CellNo) (x : Plant) : Prop :=
  (l.cls = .visitor ∧ l.home = .absent ∧ (∀ c, l.loc ≠ .cell c) ∧ home = none)
    ∨ (l.cls = .resident ∧ ∃ c, home = some c
      ∧ ((l.home = .cell c ∧ validCell c = true ∧ x.homeFree l c)
        ∨ (l.home = .absent ∧ l.loc = .cell c ∧ x.homeFree l c)
        ∨ ((l.home = .choose ∨ (l.home = .absent ∧ ∀ d, l.loc = .cell d → ¬ x.homeFree l d)) ∧ x.freeCell = some c)))

/-! ### What a trigger does to an audit list (R198–R201) -/

/-- The list keeps the audit interval timer running (R199). -/
def ListCtx.timed (c : ListCtx) : Prop := c.mode = .interval ∨ (c.mode = .intervalOnce ∧ c.armed = true)

/-- The audit interval timer judged afresh at a change of a mode or a mark: it runs on, starts one interval ahead, or is
held at zero, as in STARTING (R199). -/
def Plant.timerJudged (e : Env) (x y : Plant) : Prop :=
  (x.mgu.lib ≠ .starting → (y.adu.list1.timed ∨ y.adu.list2.timed) →
      y.adu.timer = some (x.adu.timer.getD (e.tick + ticks e.set.auditInterval)))
    ∧ ((x.mgu.lib = .starting ∨ (¬ y.adu.list1.timed ∧ ¬ y.adu.list2.timed)) → y.adu.timer = none)

/-- List `l`, its context standing as `c`, takes up the entry numbered `c.next`: the list ends there with DONE, its armed
mark cleared and the timer judged, or the entry's audit leg joins the leg queue (R194, R200, R201). -/
def Plant.takesUp (e : Env) (l : ListNo) (c : ListCtx) (x y : Plant) : Prop :=
  ((64 ≤ c.next ∨ (∃ h : c.next < 64, e.set.sweep.get ⟨c.next, h⟩ = .fin) ∨ (l = .one ∧ c.next = e.set.l2)) →
      y.list l = { c with state := .idle, armed := false } ∧ y.mou = x.mou
        ∧ (y.mgu.flags.get l.doneFlag.index).isSet = true ∧ x.timerJudged e y)
    ∧ ∀ (h : c.next < 64) (b f t : Nat) (w : Bool), e.set.sweep.get ⟨c.next, h⟩ = .range b f t w →
      ¬(l = .one ∧ c.next = e.set.l2) →
      y.list l = { c with state := .running, live := true, pos := some f, pause := w }
        ∧ y.adu.timer = x.adu.timer ∧ y.mgu = x.mgu ∧ y.out = x.out
        ∧ ∃ (g : Leg) (u v : List Leg), x.mou.queue = u ++ v ∧ y.mou.queue = u ++ g :: v ∧ g.owner = .audit l
          ∧ g.cls = .audit ∧ g.bay = b ∧ g.pos = f ∧ g.last = t ∧ g.joined = e.tick

/-- A pass of list `l` starts: its counts are 0 and its next entry is the list's first, 0 or L2 (R200); an L2 above 64 starts
list 2 past the table (log 48). -/
def Plant.passStarts (e : Env) (l : ListNo) (x y : Plant) : Prop :=
  x.takesUp e l
    { x.list l with
      counts := { read := 0, missing := 0, misfiled := 0, foreign := 0, unreadable := 0, skipped := 0 },
      next := if l = .one then 0 else min 64 e.set.l2, startPending := false } y

/-- What a trigger does to list `l`, by its state, and that it changes nothing else (R198). -/
def Plant.triggered (e : Env) (l : ListNo) (x y : Plant) : Prop :=
  (∀ m, m ≠ l → y.list m = x.list m) ∧ (y.ltu = x.ltu ∧ y.tcu = x.tcu ∧ y.dru = x.dru ∧ y.pru = x.pru)
    ∧ ((x.list l).state = .idle → (x.list l).live = true → y.list l = { x.list l with startPending := true }
        ∧ y.adu.timer = x.adu.timer ∧ y.mou = x.mou ∧ y.mgu = x.mgu ∧ y.out = x.out)
    ∧ ((x.list l).state = .idle → (x.list l).live = false → x.passStarts e l y)
    ∧ ((x.list l).state = .paused → x.takesUp e l (x.list l) y)
    ∧ (((x.list l).state = .running ∨ (x.list l).state = .suspended) → y.list l = x.list l
        ∧ y.adu.timer = x.adu.timer ∧ y.mou = x.mou ∧ (y.mgu.flags.get l.overrunFlag.index).isSet = true)

/-! ### What the start image gives (R225, R235) -/

/-- An item the image gives, or its default where a command would refuse it (R225). -/
def itemOr {α : Type} (valid : Prop) [Decidable valid] (given default : α) (item : α) : Prop :=
  item = if valid then given else default

abbrev Image.maskValid (m : List Byte) : Prop := byteAt m 4 ≠ 0 ∧ (byteAt m 4).toNat ≤ 15

abbrev Image.paceValid (m : List Byte) : Prop :=
  (byteAt m 5).toNat ≤ 3 ∧ (byteAt m 5 = 3 → byteAt m 7 = 2 ∨ byteAt m 7 = 4 ∨ byteAt m 7 = 6)

abbrev Image.drainValid (m : List Byte) : Prop :=
  byteAt m 13 = 8 ∨ byteAt m 13 = 16 ∨ byteAt m 13 = 32 ∨ byteAt m 13 = 64

/-- The present byte's codes are read by the position rule of R233 (log 5). -/
abbrev Image.driveValid (m : List Byte) (d : DriveNo) : Prop :=
  (byteAt m (19 + 6 * d.val)).toNat ≤ 1 ∧ (byteAt m (20 + 6 * d.val)).toNat ≤ 15

abbrev Image.rateValid (m : List Byte) (c : Fin 8) : Prop :=
  1 ≤ (halfAt m (213 + 8 * c.val)).toNat ∧ (halfAt m (213 + 8 * c.val)).toNat ≤ 36000

/-- The periods of the shift table: start minute and factor of each slot up to the count. -/
abbrev Image.periods (m : List Byte) : List (BitVec 16 × Byte) := periodsAt (byteAt m 275).toNat (m.drop 276)

abbrev Image.shiftsValid (m : List Byte) : Prop :=
  (byteAt m 275).toNat ≤ 4 ∧ (∀ n ∈ (Image.periods m).map (fun p => p.1.toNat), n ≤ 1439) ∧ ((Image.periods m).map fun p => p.1).Nodup

abbrev Image.timesValid (m : List Byte) (k : Fin 14) : Prop :=
  (byteAt m (292 + 5 * k.val)).toNat ≤ 3
    ∧ (halfAt m (288 + 5 * k.val) = 0 ∨ ¬(k = 4 ∨ k = 8 ∨ k = 9 ∨ k = 10 ∨ k = 13))

/-- The segments of a line slot, where it has at most 40 bytes, each a character or an insert code, and at most twelve
segments (R156, R235). -/
def Image.line (m : List Byte) (o : Nat) : Option (List Segment) :=
  if (byteAt m o).toNat ≤ 40 then
    (segmentsOf (bytesAt m (o + 1) (byteAt m o).toNat)).filter fun l => l.length ≤ 12
  else none

abbrev Image.templateValid (m : List Byte) (n : Fin 15) : Prop :=
  Image.line m (358 + 82 * n.val) ≠ none ∧ Image.line m (399 + 82 * n.val) ≠ none

/-- A kind byte with bits above the pause mark is refused as in LOAD SWEEP (log 18). -/
abbrev Image.sweepValid (m : List Byte) (n : Fin 64) : Prop :=
  (byteAt m (1588 + 4 * n.val)).toNat ≤ 3
    ∧ ((byteAt m (1588 + 4 * n.val)).getLsbD 0 = true →
      storageBay (byteAt m (1589 + 4 * n.val)).toNat = true
        ∧ (byteAt m (1590 + 4 * n.val)).toNat ≤ (byteAt m (1591 + 4 * n.val)).toNat
        ∧ (byteAt m (1591 + 4 * n.val)).toNat ≤ 15)

/-- The mode of list 1 (`k` = 0) or list 2 (`k` = 1). -/
abbrev Image.modeValid (m : List Byte) (k : Nat) : Prop := (byteAt m (1845 + k)).toNat ≤ 4

abbrev Image.intervalValid (m : List Byte) : Prop := 100 ≤ (halfAt m 1847).toNat

/-- The scalar items: the bytes of R235 from the fifth, each as the command of R225 would apply it. -/
def Image.scalarsRead (m : List Byte) (t : Settings) : Prop :=
  itemOr (Image.maskValid m) ((byteAt m 4).setWidth 4) 15 t.mgmtMask
    ∧ (byteAt m 5 = 0 → t.pace = .A) ∧ (byteAt m 5 = 1 → t.pace = .B) ∧ (byteAt m 5 = 2 → t.pace = .C)
    ∧ (byteAt m 5 = 3 → Image.paceValid m → t.pace = .D (max 2 (min 15 (byteAt m 6).toNat)) (byteAt m 7).toNat)
    ∧ (¬ Image.paceValid m → t.pace = .A)
    ∧ t.tenure = max 50 (min 600 (halfAt m 8).toNat)
    ∧ (byteAt m 10 = 0 → t.prescale = 1) ∧ (byteAt m 10 = 1 → t.prescale = 16)
    ∧ (2 ≤ (byteAt m 10).toNat → t.prescale = 256)
    ∧ itemOr ((byteAt m 10).toNat ≤ 2) (max 1 (halfAt m 11).toNat) 4800 t.divisor
    ∧ itemOr (Image.drainValid m) ((byteAt m 13).toNat, max 10 (min 6000 (halfAt m 14).toNat)) (32, 300)
        (t.trigger, t.quiet)
    ∧ t.mountLimit = (halfAt m 16).toNat ∧ t.failLimit = (byteAt m 18).toNat ∧ t.l2 = (byteAt m 1844).toNat
    ∧ itemOr (Image.intervalValid m) (halfAt m 1847).toNat 36000 t.auditInterval
    ∧ t.noticeMask = BitVec.allOnes 14

/-- The tables and the lists' modes: each entry as its bytes give it, or its default. -/
def Image.tablesRead (m : List Byte) (i : Image) : Prop :=
  (∀ d : DriveNo, itemOr (Image.driveValid m d)
      { present := byteAt m (19 + 6 * d.val) = 0, mask := (byteAt m (20 + 6 * d.val)).setWidth 4,
        interval := (wordAt m (21 + 6 * d.val)).toNat : DriveSetup }
      { present := true, mask := 15, interval := 0 } (i.drives.get d))
    ∧ (∀ c : Fin 8, itemOr (Image.rateValid m c)
      { fee := (halfAt m (211 + 8 * c.val)).toNat, granule := (halfAt m (213 + 8 * c.val)).toNat,
        price := (halfAt m (215 + 8 * c.val)).toNat, wear := (halfAt m (217 + 8 * c.val)).toNat : Rate }
      { fee := 0, granule := 600, price := 0, wear := 0 } (i.settings.rates.get c))
    ∧ (Image.shiftsValid m → shiftsOk i.settings.shifts
        ∧ i.settings.shifts.Perm ((Image.periods m).map fun p => { start := p.1.toNat, factor := min 64 p.2.toNat }))
    ∧ (¬ Image.shiftsValid m → i.settings.shifts = [])
    ∧ (∀ k : Fin 14, itemOr (Image.timesValid m k)
      { deadline := (halfAt m (288 + 5 * k.val)).toNat, escalation := (halfAt m (290 + 5 * k.val)).toNat,
        urgency := (byteAt m (292 + 5 * k.val)).toNat : PromptTimes }
      (defaultTimes.get k) (i.settings.times.get k))
    ∧ (∀ n : Fin 15,
      (∀ a b, Image.line m (358 + 82 * n.val) = some a → Image.line m (399 + 82 * n.val) = some b →
        i.settings.templates.get n = { line1 := truncateLine 40 a, line2 := truncateLine 40 b })
      ∧ (¬ Image.templateValid m n → i.settings.templates.get n = defaultTemplates.get n))
    ∧ (∀ n : Fin 64, itemOr (Image.sweepValid m n ∧ (byteAt m (1588 + 4 * n.val)).getLsbD 0 = true)
      (.range (byteAt m (1589 + 4 * n.val)).toNat (byteAt m (1590 + 4 * n.val)).toNat
        (byteAt m (1591 + 4 * n.val)).toNat ((byteAt m (1588 + 4 * n.val)).getLsbD 1))
      .fin (i.settings.sweep.get n))
    ∧ (∀ k : Fin 2, ∀ mode, mode = (if k = 0 then i.mode1 else i.mode2) →
      (byteAt m (1845 + k.val) = 0 → mode = .off) ∧ (byteAt m (1845 + k.val) = 1 → mode = .command)
      ∧ (byteAt m (1845 + k.val) = 2 → mode = .door) ∧ (byteAt m (1845 + k.val) = 3 → mode = .interval)
      ∧ (byteAt m (1845 + k.val) = 4 → mode = .intervalOnce) ∧ (¬ Image.modeValid m k.val → mode = .off))

/-- How many items a command would refuse: one for each scalar or pair, drive entry, rate class, shift table, kind's prompt
times, template and sweep entry (R225). -/
def Image.refused (m : List Byte) : Nat :=
  let one (valid : Bool) : Nat := if valid then 0 else 1
  one (Image.maskValid m) + one (Image.paceValid m) + one ((byteAt m 10).toNat ≤ 2) + one (Image.drainValid m)
    + (List.finRange 32).countP (fun d => ¬ Image.driveValid m d)
    + (List.finRange 8).countP (fun c => ¬ Image.rateValid m c) + one (Image.shiftsValid m)
    + (List.finRange 14).countP (fun k => ¬ Image.timesValid m k)
    + (List.finRange 15).countP (fun n => ¬ Image.templateValid m n)
    + (List.finRange 64).countP (fun n => ¬ Image.sweepValid m n)
    + one (Image.modeValid m 0) + one (Image.modeValid m 1) + one (Image.intervalValid m)

/-! ### What a fault or a report of an accessor in RESTARTING does (R228) -/

/-- The answered marks and the library state after an answer of an accessor: in RESTARTING its mark is set, and the library
is RUNNING when both are; in any other state the answer changes neither (R228). -/
def Mgu.answeredBy (a : Acc) (m n : Mgu) : Prop :=
  (n.ansA = true ↔ (m.ansA = true ∨ (m.lib = .restarting ∧ a = .A)))
    ∧ (n.ansB = true ↔ (m.ansB = true ∨ (m.lib = .restarting ∧ a = .B)))
    ∧ (m.lib ≠ .restarting → n.lib = m.lib)
    ∧ (m.lib = .restarting → n.lib = if n.ansA = true ∧ n.ansB = true then .running else .restarting)

/-! ### Commands by what they may change -/

/-- The kind of a step report fits a kind of step (R86). -/
def reportFits : Instr → StepKind → Bool
  | .arrived _ _, .travel _ => true
  | .picked _ _ _, .pick _ _ => true
  | .gripMiss _ _, .pick _ _ => true
  | .placed _ _, .place _ _ => true
  | .placeBlocked _ _, .place _ _ => true
  | .readDone _ _ rs, .read _ first last => first + rs.length = last + 1
  | .recovered _ _ _ _, .recover _ _ => true
  | .motor _ _, _ => true
  | .labelDevice _ _, .pick _ _ => true
  | .labelDevice _ _, .read _ _ _ => true
  | .labelDevice _ _, .recover _ _ => true
  | _, _ => false

/-- An order as its arrival is judged (R28): its header, whether its fields hold values its kind takes, and whether it is
of a mount kind; none for any other command. -/
def arrivalOf : Instr → Option (Hdr × Bool × Bool)
  | .mount h v d i _ => some (h, (serialOf v).isSome && (driveOf d).isSome && (intentOf i).isSome, true)
  | .mountScratch h d _ => some (h, (driveOf d).isSome, true)
  | .dismount h d => some (h, (driveOf d).isSome, false)
  | .cancel h _ => some (h, true, false)
  | .queryVolume h v => some (h, (serialOf v).isSome, false)
  | .queryDrive h d => some (h, (driveOf d).isSome, false)
  | .badOrder h k => if 1 ≤ k.toNat ∧ k.toNat ≤ 6 then none else some (h, false, false)
  | _ => none

/-- The header of a management command (R216, R217), none for any other command. EJECT, UNKNOWN_COMMAND and
NOT_PERMITTED, which are judged before their length is, are left out. -/
def managementOf : Instr → Option Hdr
  | .loadVolume h _ | .deleteVolume h _ | .setVolumeFlags h _ _ _ | .readVolume h _ | .readNextVolume h _ | .readCell h _
  | .readSlot h _ _ | .readPool h _ | .fenceWrite h _ | .fencePersist h _ | .readFence h | .setWearLimits h _ _
  | .readWearLimits h | .setPace h _ _ _ | .readTask h _ | .setTenure h _ | .readAccessor h _ | .readLeg h _
  | .loadDrive h _ _ _ _ _ | .readDrive h _ | .setPromptTimes h _ _ _ _ | .loadTemplate h _ _ _ | .readPrompt h _ _
  | .readConsole h _ | .readTemplate h _ | .readPromptTimes h _ | .setTimeBase h _ _ | .setClock h _ | .readClock h
  | .loadRate h _ _ _ _ _ | .readRate h _ | .loadShifts h _ | .readShifts h | .loadAccount h _ _ _
  | .clearAccount h _ _ | .readAccount h _ | .setDrain h _ _ | .readDrain h | .take h _ _ _ | .readRecord h _
  | .loadSweep h _ _ _ _ _ | .setSweepBoundary h _ | .setAuditMode h _ _ | .startSweep h _ | .setAuditInterval h _
  | .readSweepEntry h _ | .readSweepList h _ | .readSweepTimer h | .readLink h | .clearLinkCounters h _
  | .setManagementPaths h _ | .readState h | .readFlags h | .clearFlags h _ | .setNoticeMask h _ | .libraryStart h
  | .restart h => some h
  | _ => none

/-- The commands that begin STARTING or hold the part (R223). -/
def isReset : Instr → Bool
  | .powerOn _ | .hardReset _ | .resetPinAsserted => true
  | _ => false

end Sys2Proof.Machine
end

