-- ==== Sys2Proof/WellFormed.lean ====
section
/-!
DEFINITION. The commands the links, the pins and the part's own timers can give: what a frame's form fixes before its
owner judges it (R149, R212, R213, R230–R234).
-/
namespace Sys2Proof

/-- A field of six serial bytes in a frame of its command's length. -/
def sixBytes (h : Hdr) (l : List Byte) : Bool := !h.sized || l.length = 6

/-- A frame's payload holds at most 128 bytes (R211): what a variable field leaves for its bytes. -/
def fitsFrame (h : Hdr) (n : Nat) : Bool := !h.sized || n ≤ 128

/-- A command is well formed when the form of the frame, or the event, that carries it admits its operands. -/
def Instr.wellFormed : Instr → Bool
  | .mount h s _ _ _ => sixBytes h s
  | .queryVolume h s => sixBytes h s
  | .readDone _ _ rs => 1 ≤ rs.length && rs.length ≤ 16
  | .malformedFrame l bs => Machine.judgeFrame l bs = .malformed
  | .promptEscalation n => n ≠ 0
  | .promptDeadlineExpiry n => n ≠ 0
  | .unknownCommand _ c => !Machine.knownCommand c
  | .badOrder _ k => !(1 ≤ k.toNat && k.toNat ≤ 6)
  | .loadVolume h f => sixBytes h f.serial
  | .deleteVolume h s => sixBytes h s
  | .setVolumeFlags h s _ _ => sixBytes h s
  | .readVolume h s => sixBytes h s
  | .readNextVolume h s => sixBytes h s
  | .eject h s => sixBytes h s
  | .fenceWrite h f => sixBytes h f.first && sixBytes h f.last
  | .fencePersist h f => sixBytes h f.first && sixBytes h f.last
  | .loadTemplate h _ l1 l2 => fitsFrame h (5 + l1.length + l2.length)
  | .loadShifts h ps => fitsFrame h (3 + 3 * ps.length)
  | .clearFlags h ps => fitsFrame h (3 + 5 * ps.length)
  | .powerOn _ | .hardReset _ | .imageRead _ | .imageReadTimeout | .dayClockMinute | .mountScratch _ _ _
  | .dismount _ _ | .cancel _ _ | .queryDrive _ _ | .admission | .recoveryTaskCreation | .refileTaskCreation
  | .arrived _ _ | .picked _ _ _ | .gripMiss _ _ | .placed _ _ | .placeBlocked _ _ | .recovered _ _ _ _ | .motor _ _
  | .labelDevice _ _ | .stepDeadlineExpiry _ | .tenureExpiry | .legPromotion | .ready _ | .threadFail _
  | .unloaded _ _ _ _ | .online _ | .offline _ | .check _ | .doneKey _ | .cancelKey _ | .skipKey _ | .holdKey _
  | .enterKey _ | .switchRun _ | .switchMaintain _ | .doorOpen | .doorClosed | .quietTimerExpiry | .persistCompletion
  | .auditIntervalExpiry | .readCell _ _ | .readSlot _ _ _ | .readPool _ _ | .readFence _ | .setWearLimits _ _ _
  | .readWearLimits _ | .setPace _ _ _ _ | .readTask _ _ | .setTenure _ _ | .readAccessor _ _ | .readLeg _ _
  | .loadDrive _ _ _ _ _ _ | .readDrive _ _ | .setPromptTimes _ _ _ _ _ | .readPrompt _ _ _ | .readConsole _ _
  | .readTemplate _ _ | .readPromptTimes _ _ | .setTimeBase _ _ _ | .setClock _ _ | .readClock _
  | .loadRate _ _ _ _ _ _ | .readRate _ _ | .readShifts _ | .loadAccount _ _ _ _ | .clearAccount _ _ _
  | .readAccount _ _ | .setDrain _ _ _ | .readDrain _ | .take _ _ _ _ | .readRecord _ _ | .loadSweep _ _ _ _ _ _
  | .setSweepBoundary _ _ | .setAuditMode _ _ _ | .startSweep _ _ | .setAuditInterval _ _ | .readSweepEntry _ _
  | .readSweepList _ _ | .readSweepTimer _ | .readLink _ | .clearLinkCounters _ _ | .setManagementPaths _ _
  | .readState _ | .readFlags _ | .setNoticeMask _ _ | .libraryStart _ | .restart _ | .tick | .resetPinAsserted
  | .notPermitted _ _ => true

end Sys2Proof
end

