-- ==== Sys2Proof/Certificates/Slice0/Obligations.lean ====
section
/-!
DEFINITION. The statements for the provers. Each docstring names the rules it comes from; where a clause is the model's
own choice it says so and names the log entry.
-/
open Sys2Proof Sys2Proof.Machine

/-! ### Steps, resets and the clock -/

/-- A step is exec of the command at the front of the queue on the state with the rest of the queue; that an empty
queue idles is the model's choice (log 1). No command stops the part, and none but a step touches the queue of
waiting commands. -/
def Obligations.StepTakesTheFrontCommand : Prop :=
  ((∀ (c : Instr) (s : State) (rest : List Instr),
    step { s with pending := c :: rest } = exec c { s with pending := rest })
  ∧ ∀ s : State, s.pending = [] → step s = .next s)
  ∧ (∀ (c : Instr) (s : State), ∃ t, exec c s = .next t ∧ t.pending = s.pending)

/-- What the rules give every block at power-on: R25, R34, R54, R112, R131, R169, R171, R172, R176, R186, R188,
R210, R214, R219, R221, R223, R228. That the strap is clear at State.reset is the model's choice (log 2), and so is
that drives stand at their default entries until the image is applied (log 25). The invariants that the statements
below say every command keeps hold there. -/
def Obligations.ResetLeavesTheRulesValues : Prop :=
  (State.reset.plant.mgu.lib = .starting ∧ State.reset.plant.mgu.imageStart = some 0
  ∧ State.reset.plant.mgu.ansA = false ∧ State.reset.plant.mgu.ansB = false ∧ State.reset.plant.mgu.gen = 0
  ∧ (∀ f : Fin 14, State.reset.plant.mgu.flags.get f = { isSet := false, gen := 0 })
  ∧ State.reset.plant.ltu.volumes = [] ∧ State.reset.plant.ltu.pool = []
  ∧ (∀ c : CellNo, State.reset.plant.cell c = { num := c, occ := .empty, homeOf := none })
  ∧ (∀ n : Fin 8, State.reset.plant.entry n = Slot.clear ∧ State.reset.plant.service n = Slot.clear)
  ∧ (∀ h : Fin 4, State.reset.plant.handoff h = Slot.clear)
  ∧ (∀ p : Path, State.reset.oiu.queues.get p = [] ∧ State.reset.oiu.paced.get p = false)
  ∧ State.reset.oiu.lastServed = 3
  ∧ (∀ t : TaskNo, State.reset.plant.task? t = none) ∧ State.reset.plant.tcu.requests = []
  ∧ (∀ a : Acc, (State.reset.plant.acc a).state = .unknown ∧ (State.reset.plant.acc a).bay = none
      ∧ (State.reset.plant.acc a).gripper = .notKnown ∧ (State.reset.plant.acc a).step = none
      ∧ (State.reset.plant.acc a).leg = none ∧ (State.reset.plant.acc a).nextTag = 0
      ∧ (State.reset.plant.acc a).late = 0 ∧ (State.reset.plant.acc a).lastFault = none)
  ∧ State.reset.plant.mou.queue = [] ∧ State.reset.plant.mou.holder = none
  ∧ (∀ d : DriveNo, State.reset.plant.drive d
      = { present := true, mask := 15, state := .empty, volume := none, bound := none, mountOpen := false, footage := 0,
          interval := 0, offlinePending := false, rethreadDone := false, unloadSeen := false, preFault := none,
          stray := 0 })
  ∧ State.reset.plant.pru.table = [] ∧ State.reset.plant.pru.backlog = [] ∧ State.reset.plant.pru.lastNumber = 65535
  ∧ State.reset.env.sw1 = .notKnown ∧ State.reset.env.sw2 = .notKnown
  ∧ (∀ n : Fin 256, State.reset.acu.accounts.get n
      = { cls := 0, allowance := 0, total := 0, mounts := 0, occupancy := 0, saturated := false })
  ∧ State.reset.acu.buffer = [] ∧ State.reset.acu.nextSeq = 0 ∧ State.reset.acu.quietEnd = none
  ∧ State.reset.env.tick = 0 ∧ State.reset.env.minute = 0 ∧ State.reset.env.sub = 0
  ∧ State.reset.env.set.prescale = 256 ∧ State.reset.env.set.divisor = 4800
  ∧ State.reset.env.set.noticeMask = BitVec.allOnes 14
  ∧ State.reset.env.hold1 = false ∧ State.reset.env.hold2 = false ∧ State.reset.env.door = false
  ∧ State.reset.env.linkC = 0 ∧ State.reset.env.linkM = 0
  ∧ State.reset.plant.adu.timer = none ∧ State.reset.plant.adu.list1.state = .idle
  ∧ State.reset.plant.adu.list2.state = .idle ∧ State.reset.pending = [])
  ∧ State.reset.env.fence.ok ∧ State.reset.env.ok ∧ State.reset.oiu.ok ∧ State.reset.acu.ok
  ∧ State.reset.plant.tablesOk ∧ State.reset.plant.requestsOk ∧ State.reset.plant.zoneOk ∧ State.reset.bounded
  ∧ State.reset.plant.legsOk ∧ State.reset.plant.promptsOk

/-- What the end of every action (`Plant.settle`: the waiters for a slot served, the ZONE waits judged, the accessors'
next moves) does, and what it leaves as it was. What it does. R60, R58: where a
service slot is EMPTY, the lowest is reserved for the oldest service waiter, by admitted tick and then by the lower task
number, which waits no more, and its leg there is queued or taken (wherever the legs have numbers of their own and a waiting task has
no leg, which every command keeps: SettingsQueuesAndRecordsStayInRange); where a handoff slot is EMPTY, the lowest goes to the
oldest handoff waiter in the same way, with leg 2's destination kept (the service rack is served first by the model's
choice, log 61). Where nobody waits and no reel in a service slot is to be asked for, an accessor's turn (`Plant.act`,
whose rules stand in StepsAreSentAndTravelsArrive and LegsAreTakenInOrderAndTheZoneIsShared) is taken whenever there is
one, by the one first in turn, and where there is none nothing is changed. What it leaves. The frames already made come
first; the library state, the marks, every flag but PROMPT-BACKLOG and the pool stay; a volume keeps everything but, where its task ends,
its binding, and its location changes only from an entry slot or from a cell that does not name a volume; where no two
records have one serial, a cell that is OCCUPIED, FOREIGN or SUSPECT, what stands in an OCCUPIED service or handoff slot,
and an entry slot with no task stay; a task that waits for no slot and has no leg is untouched, and so is a drive no task is bound to, or whose task waits for
no slot and has no leg to a drive; a free record stays free; an accessor keeps its bay, its gripper and a step in
flight; a list changes only from SUSPENDED to RUNNING. Where no task waits for a slot and no task's leg leads to a
drive, the tables, the drives, the prompts, the flags and the handoff rack are not touched at all. The order in which
the end of an action goes is the model's choice (log 61). -/
def Obligations.SettlingServesTheWaitersAndLeavesTheRest : Prop :=
  (∀ (e : Env) (x : Plant) (t : TaskNo) (k : Task) (w : Work) (src : Location), ∀ y, y = x.settle e → x.legsOk →
    x.task? t = some k → k.work = some w → x.reelAt k = some src → src ≠ .outside → src ≠ .unknown →
    (∀ u m, x.task? u = some m → m.waiter = k.waiter → u ≠ t →
      elapsed m.admitted e.tick < elapsed k.admitted e.tick
        ∨ (elapsed m.admitted e.tick = elapsed k.admitted e.tick ∧ t < u)) →
    ∀ led : Location → Option Location → Prop,
    (led = fun dst onward => ∃ g, (g ∈ y.mou.queue ∨ ∃ a, (y.acc a).leg = some g) ∧ g.owner = .task t ∧ g.src = src
      ∧ g.dst = some dst ∧ g.onward = onward) →
    (∀ n, k.waiter = some .service → x.emptyService = some n → k.service = none →
      (w = .remove ∨ w = .ringPull ∨ w = .ringStop ∨ w = .returnSlot) →
      (capable .A src (.service n) = true ∨ capable .B src (.service n) = true) →
      y.service n = Slot.reserve t ∧ led (.service n) none
        ∧ ∃ m, y.task? t = some m ∧ m.service = some n ∧ m.waiter = none)
    ∧ ∀ h dst, k.waiter = some .handoff → x.emptyHandoff = some h → k.handoff = none →
      ((∀ u m, x.task? u = some m → m.waiter ≠ some .service) ∨ x.emptyService = none) →
      ((w = .toDrive ∧ ∃ d, k.drive = some d ∧ dst = .drive d) ∨ (w = .store ∧ ∃ c, k.cell = some c ∧ dst = .cell c)) →
      (∀ n, src = .entry n → k.service ≠ none) → capable .A src dst = false → capable .B src dst = false →
      y.handoff h = Slot.reserve t ∧ led (.handoff h) (some dst)
        ∧ ∃ m, y.task? t = some m ∧ m.handoff = some h ∧ m.waiter = none)
  ∧ (∀ (e : Env) (x : Plant) (quiet : Plant → Prop),
    (quiet = fun z => (∀ t k, z.task? t = some k → k.waiter = none) ∧ z.tcu.rackFull = false ∧ z.judgeZoneWaits = z
      ∧ ∀ n, (z.service n).state = .occupied → (z.service n).task = none → z.pru.namesSlot (.service n) = true) →
    quiet x →
    (x.act e .A = none → x.act e .B = none → x.settle e = x)
    ∧ ∀ y, quiet y → y.act e .A = none → y.act e .B = none →
      (x.act e x.firstActor = some y ∨ (x.act e x.firstActor = none ∧ x.act e x.firstActor.other = some y)) →
      x.settle e = y)
  ∧ ∀ (e : Env) (x : Plant), ∀ y, y = x.settle e →
    (∃ l m, y.out.c = x.out.c ++ l ∧ y.out.m = x.out.m ++ m)
    ∧ (y.mgu.lib = x.mgu.lib ∧ y.mgu.ansA = x.mgu.ansA ∧ y.mgu.ansB = x.mgu.ansB ∧ y.mgu.imageStart = x.mgu.imageStart
      ∧ y.mgu.outcome = x.mgu.outcome
      ∧ ∀ i, i ≠ EventFlag.promptBacklog.index → y.mgu.flags.get i = x.mgu.flags.get i)
    ∧ (y.ltu.pool = x.ltu.pool ∧ (∀ c, (y.cell c).homeOf = (x.cell c).homeOf)
      ∧ ∀ q, (y.vol? q).map (fun v => { v with loc := .outside, misfiled := false, refilePending := false, bound := none })
          = (x.vol? q).map (fun v => { v with loc := .outside, misfiled := false, refilePending := false, bound := none }))
    ∧ (x.ltu.volumes.Pairwise (fun v w => v.serial < w.serial) →
      (∀ c, (x.cell c).occ ≠ .empty → (∀ s t, (x.cell c).occ ≠ .reserved s t) → y.cell c = x.cell c)
      ∧ (∀ q v, x.vol? q = some v → (∀ n, v.loc ≠ .entry n) → (∀ c, v.loc = .cell c → ∃ r, (x.cell c).occ = .occupied r) →
        ∃ w, y.vol? q = some w ∧ w = { v with bound := w.bound }
          ∧ (w.bound = v.bound ∨ w.bound = none ∧ ∃ t, v.bound = some t ∧ x.task? t ≠ none ∧ y.task? t = none))
      ∧ (∀ n, (x.service n).state = .occupied → (y.service n).state = .occupied ∧ (y.service n).content = (x.service n).content)
      ∧ (∀ h, (x.handoff h).state = .occupied → (y.handoff h).state = .occupied ∧ (y.handoff h).content = (x.handoff h).content)
      ∧ (∀ n, (x.entry n).task = none → y.entry n = x.entry n)
      ∧ ∀ a, (y.acc a).gripper = (x.acc a).gripper)
    ∧ ((∀ t, x.task? t = none → y.task? t = none)
      ∧ ∀ t k, x.task? t = some k → k.waiter = none → (∀ l ∈ x.mou.queue, l.owner ≠ .task t) →
        (∀ a l, (x.acc a).leg = some l → l.owner ≠ .task t) → y.task? t = some k)
    ∧ ((∀ d, y.drive d = { x.drive d with
          state := (y.drive d).state, bound := (y.drive d).bound, mountOpen := (y.drive d).mountOpen,
          offlinePending := (y.drive d).offlinePending, preFault := (y.drive d).preFault })
      ∧ (∀ d, (x.drive d).bound = none → y.drive d = x.drive d)
      ∧ ∀ d t, (x.drive d).bound = some t → (∀ k, x.task? t = some k → k.waiter = none) →
        (∀ l ∈ x.mou.queue, l.owner = .task t → ∀ c, l.dst ≠ some (.drive c)) →
        (∀ a l, (x.acc a).leg = some l → l.owner = .task t → ∀ c, l.dst ≠ some (.drive c)) → y.drive d = x.drive d)
    ∧ ((∀ r ∈ x.tcu.requests, (∀ n, r ≠ .service n) → r ∈ y.tcu.requests)
      ∧ (∀ a, (y.acc a).bay = (x.acc a).bay ∧ (y.acc a).late = (x.acc a).late ∧ (y.acc a).lastFault = (x.acc a).lastFault
          ∧ (y.acc a).read = (x.acc a).read ∧ (y.acc a).viaEntry = (x.acc a).viaEntry)
      ∧ (∀ a f, (x.acc a).step = some f → (y.acc a).step = some f ∧ (y.acc a).state = (x.acc a).state
          ∧ (y.acc a).nextTag = (x.acc a).nextTag ∧ (y.acc a).errand = (x.acc a).errand)
      ∧ y.adu.timer = x.adu.timer
      ∧ (y.adu.list1 = x.adu.list1 ∨ (x.adu.list1.state = .suspended ∧ y.adu.list1 = { x.adu.list1 with state := .running }))
      ∧ (y.adu.list2 = x.adu.list2 ∨ (x.adu.list2.state = .suspended ∧ y.adu.list2 = { x.adu.list2 with state := .running })))
    ∧ ((∀ t k, x.task? t = some k → k.waiter = none) → x.tcu.rackFull = false →
      (∀ l ∈ x.mou.queue, ∀ t d, l.owner = .task t → l.dst ≠ some (.drive d)) →
      (∀ a l t d, (x.acc a).leg = some l → l.owner = .task t → l.dst ≠ some (.drive d)) →
      y.ltu = x.ltu ∧ y.dru = x.dru ∧ y.pru = x.pru ∧ y.mgu = x.mgu ∧ y.mou.handoff = x.mou.handoff
        ∧ ∃ l, y.out.c = x.out.c ++ l ∧ ∀ f ∈ l, ∃ p g s, f = .status p (some g) .interim s)

/-- R141, R223: power-on rebuilds the working fence from the stored copy; a hard reset does so too but keeps a HELD
working mode; each abandons a persist in flight and begins STARTING with every block at its reset values; with the
strap set STARTING ends in the same action with every setting at its default and IMAGE-BAD not set. An asserted
reset pin holds the part: every command but a power-on, a hard reset or the pin's own leaves it as it is. The frames
already sent and the commands that wait are the model's own records and stay (log 3). -/
def Obligations.PowerOnAndHardResetBeginStarting : Prop :=
  ((∀ s : State, exec (.powerOn false) s
    = .next { State.reset with
        env := { State.reset.env with fence := { working := s.env.fence.stored, stored := s.env.fence.stored, persist := none } },
        plant := { State.reset.plant with
          out := s.plant.out, tcu := { State.reset.plant.tcu with choices := s.plant.tcu.choices } },
        pending := s.pending })
  ∧ (∀ s : State, exec (.hardReset false) s
    = .next { State.reset with
        env := { State.reset.env with
          fence := { working := if s.env.fence.working.mode = .held then { s.env.fence.stored with mode := .held }
                                else s.env.fence.stored,
                     stored := s.env.fence.stored, persist := none } },
        plant := { State.reset.plant with
          out := s.plant.out, tcu := { State.reset.plant.tcu with choices := s.plant.tcu.choices } },
        pending := s.pending })
  ∧ ∀ s : State, ∃ t u, exec (.powerOn true) s = .next t ∧ exec (.hardReset true) s = .next u
    ∧ t.plant.mgu.lib = .loading ∧ u.plant.mgu.lib = .loading ∧ t.env.set = defaultSettings ∧ u.env.set = defaultSettings
    ∧ t.plant.mgu.outcome = .byStrap ∧ u.plant.mgu.outcome = .byStrap
    ∧ t.plant.mgu.flags = State.reset.plant.mgu.flags ∧ u.plant.mgu.flags = State.reset.plant.mgu.flags
    ∧ t.env.fence = { working := s.env.fence.stored, stored := s.env.fence.stored, persist := none }
    ∧ u.env.fence = { working := if s.env.fence.working.mode = .held then { s.env.fence.stored with mode := .held }
                                 else s.env.fence.stored,
                      stored := s.env.fence.stored, persist := none }
    ∧ t.plant.ltu = State.reset.plant.ltu ∧ u.plant.ltu = State.reset.plant.ltu
    ∧ t.acu = State.reset.acu ∧ u.acu = State.reset.acu ∧ t.oiu = State.reset.oiu ∧ u.oiu = State.reset.oiu
    ∧ t.plant.out.c = s.plant.out.c ∧ u.plant.out.c = s.plant.out.c)
  ∧ ((∀ s : State, exec .resetPinAsserted s = .next { s with env := { s.env with resetPin := true } })
  ∧ ∀ (c : Instr) (s : State), s.env.resetPin = true → isReset c = false → exec c s = .next s)

/-- R224, R225, R235: a good image completed within 50 ticks is applied item by item; a bad one, one completed later,
and the expiry of the 50 ticks put every item at its default and set IMAGE-BAD, of which no NOTICE is sent in STARTING;
the library becomes LOADING, with the drive entries, the lists' modes and the audit timer that the items give. The
fence, the clock, the accounts and the tables of volumes are not touched. Before the 50 ticks
the expiry does nothing (the model's choice, log 22), and where no image read is in progress neither is this event. What
a good image's items are: the bytes of R235, each as its command would take it, or its default, and the
number defaulted. An image is good when its marker is 4C36h, its length field 1,846, it holds all its 1,852 bytes, and
its last two are the check word over the 1,850 before them. R169: where no prompt is open and neither console has been
sent anything yet, each is sent one DISPLAY of the IDLE template as the image gives it, console 1 first (the model's
choice, log 94). How the present byte is read (log 5), that a pair of R225 counts as one item (log 58), and what a
sweep entry's kind byte may hold (logs 18 and 53) are the model's readings. -/
def Obligations.ImageReadAppliesOrDefaults : Prop :=
  (∀ (s : State) (t : Tick), s.free → s.plant.mgu.lib = .starting → s.plant.mgu.imageStart = some t →
    (∀ m : List Byte, imageGood m = true → elapsed t s.env.tick ≤ 50 →
      ∃ u, exec (.imageRead m) s = .next u ∧ u.plant.mgu.lib = .loading ∧ u.plant.mgu.imageStart = none
        ∧ u.plant.mgu.outcome = .used (Image.of m).defaulted ∧ u.env = { s.env with set := (Image.of m).settings }
        ∧ u.plant.dru.drives = (Image.of m).drives.map Drive.boot
        ∧ u.plant.adu.list1 = ListCtx.boot (Image.of m).mode1 ∧ u.plant.adu.list2 = ListCtx.boot (Image.of m).mode2
        ∧ (u.plant.adu.timer = if (Image.of m).mode1 = .interval ∨ (Image.of m).mode2 = .interval
            then some (s.env.tick + ticks (Image.of m).settings.auditInterval) else none)
        ∧ u.plant.out.c = s.plant.out.c ∧ u.acu = s.acu ∧ u.oiu = s.oiu ∧ u.plant.ltu = s.plant.ltu
        ∧ u.plant.tcu = s.plant.tcu ∧ u.plant.mou = s.plant.mou ∧ u.plant.pru.table = s.plant.pru.table
        ∧ ((u.plant.mgu.flags.get EventFlag.imageBad.index).isSet = true ↔ ((Image.of m).defaulted ≠ 0
            ∨ (s.plant.mgu.flags.get EventFlag.imageBad.index).isSet = true))
        ∧ ∀ i, i ≠ EventFlag.imageBad.index → u.plant.mgu.flags.get i = s.plant.mgu.flags.get i)
    ∧ (∀ c : Instr,
      ((∃ m, c = .imageRead m ∧ (imageGood m = false ∨ 50 < elapsed t s.env.tick))
        ∨ (c = .imageReadTimeout ∧ reached s.env.tick (t + ticks 50) = true)) →
      ∃ u, exec c s = .next u ∧ u.plant.mgu.lib = .loading ∧ u.plant.mgu.imageStart = none
        ∧ u.plant.mgu.outcome = .badImage ∧ u.env = { s.env with set := defaultSettings }
        ∧ (∀ d : DriveNo, u.plant.drive d
            = { present := true, mask := 15, state := .empty, volume := none, bound := none, mountOpen := false,
                footage := 0, interval := 0, offlinePending := false, rethreadDone := false, unloadSeen := false,
                preFault := none, stray := 0 })
        ∧ u.plant.adu.list1 = ListCtx.boot .off ∧ u.plant.adu.list2 = ListCtx.boot .off ∧ u.plant.adu.timer = none
        ∧ u.plant.out.c = s.plant.out.c ∧ u.acu = s.acu ∧ u.oiu = s.oiu ∧ u.plant.ltu = s.plant.ltu
        ∧ u.plant.tcu = s.plant.tcu ∧ u.plant.mou = s.plant.mou ∧ u.plant.pru.table = s.plant.pru.table
        ∧ (u.plant.mgu.flags.get EventFlag.imageBad.index).isSet = true
        ∧ ∀ i, i ≠ EventFlag.imageBad.index → u.plant.mgu.flags.get i = s.plant.mgu.flags.get i)
    ∧ (reached s.env.tick (t + ticks 50) = false → exec .imageReadTimeout s = .next s))
  ∧ (∀ (s : State) (m : List Byte), s.free → s.plant.mgu.imageStart = none →
    exec (.imageRead m) s = .next s ∧ exec .imageReadTimeout s = .next s)
  ∧ (∀ m : List Byte, imageGood m = true ↔
    (m.length = 1852 ∧ m.take 2 = [0x4C, 0x36] ∧ (m.drop 2).take 2 = [0x07, 0x36]
      ∧ m.drop 1850 = beBytes 2 (crc16 (m.take 1850)).toNat))
  ∧ (∀ (s : State) (t : Tick) (c : Instr), s.free → s.plant.mgu.lib = .starting → s.plant.mgu.imageStart = some t →
    ((∃ m, c = .imageRead m) ∨ (c = .imageReadTimeout ∧ reached s.env.tick (t + ticks 50) = true)) →
    s.plant.pru.table = [] → s.plant.pru.backlog = [] →
    (∀ k, s.plant.pru.con k = { shown := none, urgency := none, lines := none }) →
    ∃ (u : State) (i : Template) (a b : List Byte), exec c s = .next u ∧ i = u.env.set.templates.get 14
      ∧ a = renderLine u.env 0 {} i.line1 ∧ b = renderLine u.env 0 {} i.line2
      ∧ u.plant.out.m = s.plant.out.m ++ [.display .one none none 0 false a b, .display .two none none 0 false a b]
      ∧ ∀ k, u.plant.pru.con k = { shown := none, urgency := none, lines := some (a, b) })
  ∧ (∀ (mode : AuditMode), ListCtx.boot mode
      = { mode := mode, armed := false, state := .idle, next := 0, pos := none, live := false, startPending := false,
          counts := { read := 0, missing := 0, misfiled := 0, foreign := 0, unreadable := 0, skipped := 0 },
          pause := false })
  ∧ (∀ s : DriveSetup, Drive.boot s
      = { present := s.present, mask := s.mask, state := if s.present then .empty else .absent, volume := none,
          bound := none, mountOpen := false, footage := 0, interval := s.interval, offlinePending := false,
          rethreadDone := false, unloadSeen := false, preFault := none, stray := 0 })
  ∧ (∀ m : List Byte, Image.scalarsRead m (Image.of m).settings ∧ Image.tablesRead m (Image.of m)
      ∧ (Image.of m).defaulted = Image.refused m)
  ∧ (defaultSettings.mgmtMask = 15 ∧ defaultSettings.noticeMask = BitVec.allOnes 14 ∧ defaultSettings.pace = .A
    ∧ defaultSettings.tenure = 200 ∧ defaultSettings.prescale = 256 ∧ defaultSettings.divisor = 4800
    ∧ defaultSettings.trigger = 32 ∧ defaultSettings.quiet = 300 ∧ defaultSettings.mountLimit = 0
    ∧ defaultSettings.failLimit = 3 ∧ defaultSettings.shifts = [] ∧ defaultSettings.l2 = 64
    ∧ defaultSettings.auditInterval = 36000 ∧ defaultSettings.times = defaultTimes
    ∧ defaultSettings.templates = defaultTemplates ∧ (∀ n : Fin 64, defaultSettings.sweep.get n = .fin)
    ∧ ∀ c : Fin 8, defaultSettings.rates.get c = { fee := 0, granule := 600, price := 0, wear := 0 })

/-- R171, R172: a tick adds one to the tick count, wrapping, and to the sub-count, which returns to 0 from 599 with
the minute rising, from 1,439 to 0; nothing else changes. DAY_CLOCK_MINUTE is that last tick (log 4). -/
def Obligations.TicksAdvanceTheClock : Prop :=
  ∀ s : State, s.free → s.env.sub ≤ 599 →
    (s.env.sub < 599 →
      exec .tick s = .next { s with env := { s.env with tick := s.env.tick + 1, sub := s.env.sub + 1 } })
    ∧ (s.env.sub = 599 →
      exec .tick s = .next { s with env := { s.env with tick := s.env.tick + 1, sub := 0, minute := (s.env.minute + 1) % 1440 } }
      ∧ exec .dayClockMinute s
        = .next { s with env := { s.env with tick := s.env.tick + 1, sub := 0, minute := (s.env.minute + 1) % 1440 } })

/-! ### The fence and the wear limits -/

/-- R135: a serial is FENCED when INVERT is clear and it lies in at least one enabled range of the working copy, or
when INVERT is set and it lies in none. R136, R137: FENCE WRITE. A field out of range, no part at all, or the mode
PERMANENT is BAD VALUE; then the lock refuses it LOCKED, and a persist in flight BUSY; a refused command changes
nothing. Taken, every part it carries stands in the working copy, what it does not carry is as before, and the stored
copy and the persist record are not touched. The lock refuses when the working mode is HELD or PERMANENT, or when it
is KEYED and neither console's key switch stands at MAINTAIN. The bytes of a fence command: the range part is not
carried where its four fields are all FFh, and otherwise an index above 7, a serial that is malformed, a first serial after
the last, or an enabled byte above 01h is out of range; INVERT is not carried at FFh, and is else 00h or 01h; the mode is not
carried at FFh, and is else 00h UNLOCKED, 01h KEYED, 02h HELD or 03h PERMANENT. That the enabled byte is read by the
position rule of R233 (log 5), that INVERT's 01h sets it, and that one field of the range part that is not FFh makes all of
it carried (log 52), are the model's readings. -/
def Obligations.FenceIsJudgedAndWritten : Prop :=
  ((∀ (e : Env) (s : Serial), e.fence.working.invert = false →
    (e.fenced s = true ↔ ∃ i : Fin 8, (e.fence.working.ranges.get i).enabled = true
      ∧ (e.fence.working.ranges.get i).first ≤ s ∧ s ≤ (e.fence.working.ranges.get i).last))
  ∧ ∀ (e : Env) (s : Serial), e.fence.working.invert = true →
    (e.fenced s = true ↔ ¬ ∃ i : Fin 8, (e.fence.working.ranges.get i).enabled = true
      ∧ (e.fence.working.ranges.get i).first ≤ s ∧ s ≤ (e.fence.working.ranges.get i).last))
  ∧ ((∀ (h : Hdr) (f : FenceFields) (s : State), s.manages h →
    (FenceParts.of f = none → exec (.fenceWrite h f) s = .next (s.replied h .badValue .nothing))
    ∧ ∀ p, FenceParts.of f = some p →
      (((p.range = none ∧ p.invert = none ∧ p.mode = none) ∨ p.mode = some .permanent) →
        exec (.fenceWrite h f) s = .next (s.replied h .badValue .nothing))
      ∧ ((p.range ≠ none ∨ p.invert ≠ none ∨ p.mode ≠ none) → p.mode ≠ some .permanent →
        (s.env.locked = true → exec (.fenceWrite h f) s = .next (s.replied h .locked .nothing))
        ∧ (s.env.locked = false → s.env.fence.persist ≠ none →
          exec (.fenceWrite h f) s = .next (s.replied h .busy .nothing))
        ∧ (s.env.locked = false → s.env.fence.persist = none →
          ∃ w : FenceCopy,
            exec (.fenceWrite h f) s = .next (({ s with env := { s.env with fence := { s.env.fence with working := w } } } :
              State).replied h .accepted .nothing)
            ∧ (∀ i r, p.range = some (i, r) →
                w.ranges.get i = r ∧ ∀ j, j ≠ i → w.ranges.get j = s.env.fence.working.ranges.get j)
            ∧ (p.range = none → w.ranges = s.env.fence.working.ranges)
            ∧ (∀ b, p.invert = some b → w.invert = b) ∧ (p.invert = none → w.invert = s.env.fence.working.invert)
            ∧ (∀ m, p.mode = some m → w.mode = m) ∧ (p.mode = none → w.mode = s.env.fence.working.mode))))
  ∧ (∀ e : Env, e.locked = true ↔
    (e.fence.working.mode = .held ∨ e.fence.working.mode = .permanent
      ∨ (e.fence.working.mode = .keyed ∧ e.sw1 ≠ .maintain ∧ e.sw2 ≠ .maintain))))
  ∧ ∀ (f : FenceFields) (absent : Prop),
    (absent = (f.index = 0xFF ∧ f.first = List.replicate 6 0xFF ∧ f.last = List.replicate 6 0xFF ∧ f.enabled = 0xFF)) →
    (FenceParts.of f = none ↔
      ((¬ absent ∧ (7 < f.index.toNat ∨ serialOf f.first = none ∨ serialOf f.last = none ∨ 1 < f.enabled.toNat
          ∨ ∃ a b, serialOf f.first = some a ∧ serialOf f.last = some b ∧ b < a))
        ∨ (f.invert ≠ 0xFF ∧ 1 < f.invert.toNat) ∨ (f.mode ≠ 0xFF ∧ 3 < f.mode.toNat)))
    ∧ ∀ p, FenceParts.of f = some p →
      (p.range = none ↔ absent)
      ∧ (∀ i r, p.range = some (i, r) → i.val = f.index.toNat ∧ serialOf f.first = some r.first
          ∧ serialOf f.last = some r.last ∧ (r.enabled = true ↔ f.enabled = 0))
      ∧ (p.invert = none ↔ f.invert = 0xFF) ∧ (∀ b, p.invert = some b → (b = true ↔ f.invert = 1))
      ∧ (p.mode = none ↔ f.mode = 0xFF)
      ∧ ∀ m, p.mode = some m → (f.mode, m) ∈ [(0#8, LockMode.unlocked), (1, .keyed), (2, .held), (3, .permanent)]

/-- R136, R138: FENCE PERSIST. The mode HELD is BAD VALUE, and the lock and a persist in flight refuse as for a
write. Taken, the parts stand in the working copy, the whole working copy becomes the image of a persist that
completes 30 ticks ahead, and ACCEPTED is replied. At the completion the stored copy is replaced whole by the image,
the persist record is absent, and FENCE-STORED is set; that before it the expiry does nothing is the model's choice
(log 22). How the parts' bytes are read stands in FenceIsJudgedAndWritten (with the model's readings of logs 5 and
52). -/
def Obligations.FencePersistStoresTheWholeCopy : Prop :=
  (∀ (h : Hdr) (f : FenceFields) (s : State), s.manages h →
    (FenceParts.of f = none → exec (.fencePersist h f) s = .next (s.replied h .badValue .nothing))
    ∧ ∀ p, FenceParts.of f = some p →
      (p.mode = some .held → exec (.fencePersist h f) s = .next (s.replied h .badValue .nothing))
      ∧ (p.mode ≠ some .held →
        (s.env.locked = true → exec (.fencePersist h f) s = .next (s.replied h .locked .nothing))
        ∧ (s.env.locked = false → s.env.fence.persist ≠ none →
          exec (.fencePersist h f) s = .next (s.replied h .busy .nothing))
        ∧ (s.env.locked = false → s.env.fence.persist = none →
          exec (.fencePersist h f) s = .next (({ s with env := { s.env with fence :=
            { working := s.env.fence.working.apply p, stored := s.env.fence.stored,
              persist := some { done := s.env.tick + 30, image := s.env.fence.working.apply p } } } } :
              State).replied h .accepted .nothing))))
  ∧ ∀ (s : State) (p : Persist), s.free → s.env.fence.persist = some p →
    (reached s.env.tick p.done = true →
      ∃ t, exec .persistCompletion s = .next t
        ∧ t.env = { s.env with fence := { working := s.env.fence.working, stored := p.image, persist := none } }
        ∧ (t.plant.mgu.flags.get EventFlag.fenceStored.index).isSet = true
        ∧ t.plant.ltu = s.plant.ltu ∧ t.plant.tcu = s.plant.tcu ∧ t.plant.mou = s.plant.mou ∧ t.plant.dru = s.plant.dru
        ∧ t.plant.pru = s.plant.pru ∧ t.plant.adu = s.plant.adu ∧ t.oiu = s.oiu ∧ t.acu = s.acu)
    ∧ (reached s.env.tick p.done = false → exec .persistCompletion s = .next s)

/-- R139: a FENCE PERSIST that names PERMANENT makes the working mode PERMANENT at once; from then on every fence
write that asks for nothing out of range is refused LOCKED; at the completion of that persist the stored mode is
PERMANENT; and once the stored mode is PERMANENT (the fence invariant standing) no command, a reset of any kind
among them, changes the stored or the working copy. A warm restart keeps the working copy; a power-on or hard reset
abandons a PERMANENT persist in flight, and the fence it rebuilds is not PERMANENT. -/
def Obligations.PermanentFenceNeverChanges : Prop :=
  (∀ (h : Hdr) (f : FenceFields) (p : FenceParts) (s : State), s.manages h → FenceParts.of f = some p →
    p.mode = some .permanent → s.env.locked = false → s.env.fence.persist = none →
    ∃ t q, exec (.fencePersist h f) s = .next t ∧ t.env.fence.working.mode = .permanent
      ∧ t.env.fence.persist = some q ∧ q.image = t.env.fence.working ∧ q.done = s.env.tick + 30)
  ∧ (∀ (h : Hdr) (f : FenceFields) (p : FenceParts) (s : State), s.manages h → FenceParts.of f = some p →
    s.env.fence.working.mode = .permanent →
    (p.writable = true → exec (.fenceWrite h f) s = .next (s.replied h .locked .nothing))
    ∧ (p.persistable = true → exec (.fencePersist h f) s = .next (s.replied h .locked .nothing)))
  ∧ (∀ (s : State) (q : Persist), s.free → s.env.fence.persist = some q → q.image.mode = .permanent →
    reached s.env.tick q.done = true →
    ∃ t, exec .persistCompletion s = .next t ∧ t.env.fence.stored.mode = .permanent)
  ∧ (∀ (c : Instr) (s t : State), s.env.fence.ok → s.env.fence.stored.mode = .permanent → exec c s = .next t →
    t.env.fence = s.env.fence)
  ∧ (∀ (h : Hdr) (s t : State), exec (.restart h) s = .next t → t.env.fence.working = s.env.fence.working)
  ∧ ∀ (b : Bool) (s : State), s.env.fence.stored.mode ≠ .permanent →
    ∃ t u, exec (.powerOn b) s = .next t ∧ exec (.hardReset b) s = .next u
      ∧ t.env.fence.stored = s.env.fence.stored ∧ u.env.fence.stored = s.env.fence.stored
      ∧ t.env.fence.persist = none ∧ u.env.fence.persist = none
      ∧ t.env.fence.working.mode ≠ .permanent ∧ u.env.fence.working.mode ≠ .permanent

/-- The fence invariant (the stored copy never holds HELD, R134; a PERMANENT stored copy is the working copy and has
no persist beside it) is kept by every step from every state that has it. -/
def Obligations.FenceInvariantKeptByEveryStep : Prop :=
  ∀ s t : State, s.env.fence.ok → step s = .next t → t.env.fence.ok

/-! ### Settings -/

/-- R110, R142, R171, R172, R194, R199, R216, R221: SET TENURE clamps its value to 50–600, SET SWEEP BOUNDARY takes
any value of its byte, SET NOTICE MASK takes a mark for each of the fourteen flags (that the two bits naming no flag
are not kept is the model's reading, log 6), SET WEAR LIMITS takes both values and marks no volume. SET TIME BASE
takes a prescale of 1, 16 or 256 with a divisor, a divisor of 0 as 1, and changes no clock (log 4); SET CLOCK sets
the minute and returns the sub-count to 0. SET AUDIT INTERVAL refuses a value below 100, and a timer that runs goes
on. SET MANAGEMENT PATHS refuses a mask without the commanding path (and, by the model's reading, one with a bit
above path 3, log 7). Any other prescale, and a minute above 1,439, is BAD VALUE. Each taken command replies
ACCEPTED. -/
def Obligations.SettingsAreTaken : Prop :=
  ((∀ (h : Hdr) (n : BitVec 16) (s : State), s.manages h →
    ∃ v, exec (.setTenure h n) s = .next ((s.withSet fun t => { t with tenure := v }).replied h .accepted .nothing)
      ∧ (n.toNat < 50 → v = 50) ∧ (600 < n.toNat → v = 600) ∧ (50 ≤ n.toNat → n.toNat ≤ 600 → v = n.toNat))
  ∧ (∀ (h : Hdr) (n : Byte) (s : State), s.manages h →
    exec (.setSweepBoundary h n) s
      = .next ((s.withSet fun t => { t with l2 := n.toNat }).replied h .accepted .nothing))
  ∧ ∀ (h : Hdr) (m : BitVec 16) (s : State), s.manages h →
    ∃ v, exec (.setNoticeMask h m) s
        = .next ((s.withSet fun t => { t with noticeMask := v }).replied h .accepted .nothing)
      ∧ ∀ f : Fin 14, v.getLsbD f.val = m.getLsbD f.val)
  ∧ (∀ (h : Hdr) (m : BitVec 16) (f : Byte) (s : State), s.manages h →
    exec (.setWearLimits h m f) s
      = .next ((s.withSet fun t => { t with mountLimit := m.toNat, failLimit := f.toNat }).replied h .accepted .nothing))
  ∧ ((∀ (h : Hdr) (p : Byte) (d : BitVec 16) (s : State), s.manages h →
    (∀ v, ((p = 0 ∧ v = 1) ∨ (p = 1 ∧ v = 16) ∨ (p = 2 ∧ v = 256)) →
      exec (.setTimeBase h p d) s
        = .next ((s.withSet fun t => { t with prescale := v, divisor := if d = 0 then 1 else d.toNat }).replied h .accepted .nothing))
    ∧ (3 ≤ p.toNat → exec (.setTimeBase h p d) s = .next (s.replied h .badValue .nothing)))
  ∧ ∀ (h : Hdr) (m : BitVec 16) (s : State), s.manages h →
    (m.toNat ≤ 1439 → exec (.setClock h m) s
      = .next (({ s with env := { s.env with minute := m.toNat, sub := 0 } } : State).replied h .accepted .nothing))
    ∧ (1439 < m.toNat → exec (.setClock h m) s = .next (s.replied h .badValue .nothing)))
  ∧ ((∀ (h : Hdr) (n : BitVec 16) (s : State), s.manages h →
    (n.toNat < 100 → exec (.setAuditInterval h n) s = .next (s.replied h .badValue .nothing))
    ∧ (100 ≤ n.toNat → exec (.setAuditInterval h n) s
      = .next ((s.withSet fun t => { t with auditInterval := n.toNat }).replied h .accepted .nothing)))
  ∧ ∀ (h : Hdr) (m : Byte) (s : State), s.manages h →
    ((m.getLsbD h.path.val = false ∨ 15 < m.toNat) →
      exec (.setManagementPaths h m) s = .next (s.replied h .badValue .nothing))
    ∧ (m.getLsbD h.path.val = true → m.toNat ≤ 15 →
      ∃ v, exec (.setManagementPaths h m) s
          = .next ((s.withSet fun t => { t with mgmtMask := v }).replied h .accepted .nothing)
        ∧ ∀ p : Path, v.getLsbD p.val = m.getLsbD p.val))

/-- R147: SET PROMPT TIMES. A kind above 13, an urgency above 3, or a deadline other than 0 for REMOVE, ACCESSOR-
FAULT, ALLOWANCE, FOREIGN or RETIRE is BAD VALUE; otherwise the kind's three values are as given and every other
kind's are as before. R156: LOAD TEMPLATE. A template above 14, a byte that is neither a character of R155 nor an
insert code, or a line of more than twelve segments is BAD VALUE; otherwise the template's two lines are the segments
given, each truncated to its 40 characters, and the views are judged in the same action. R155: the characters are the space,
the capitals, the digits and . , : - / ( ) #, adjacent ones making one literal, and the codes 80h to 89h the ten inserts at
their widths. A line within 40 characters stays; the segment that crosses the fortieth is cut to what remains, a literal
keeping its leftmost characters and an insert its width as cut, and those after it go. R173: LOAD RATE refuses a
class above 7 and a granule of 0 or above 36,000; otherwise it sets the four values of one class. R174: LOAD SHIFTS
replaces the whole table: more than four periods, a start minute above 1,439, or one start minute twice is BAD VALUE;
otherwise the table holds exactly the periods given, lowest start minute first, a factor above 64 as 64. R193: LOAD
SWEEP sets one entry, an END entry or a range of a storage bay with its pause mark; an entry above 63, and, for a
range, a bay that is no storage bay, a first position above the last, or a last position above 15, is BAD VALUE; that
a kind byte with a bit above the pause mark is refused too, and that 02h, the pause bit without the range bit, is an
END entry, are the model's readings (logs 18 and 53). -/
def Obligations.TimesTemplatesRatesShiftsAndSweepAreLoaded : Prop :=
  ((∀ (h : Hdr) (k : Byte) (d e : BitVec 16) (u : Byte) (s : State), s.manages h →
    ((13 < k.toNat ∨ 3 < u.toNat
        ∨ (d ≠ 0 ∧ (k = 4 ∨ k = 8 ∨ k = 9 ∨ k = 10 ∨ k = 13))) →
      exec (.setPromptTimes h k d e u) s = .next (s.replied h .badValue .nothing))
    ∧ ∀ i : Fin 14, k.toNat = i.val → u.toNat ≤ 3 → (d = 0 ∨ ¬(k = 4 ∨ k = 8 ∨ k = 9 ∨ k = 10 ∨ k = 13)) →
      ∃ v : Vector PromptTimes 14,
        exec (.setPromptTimes h k d e u) s = .next ((s.withSet fun t => { t with times := v }).replied h .accepted .nothing)
        ∧ v.get i = { deadline := d.toNat, escalation := e.toNat, urgency := u.toNat }
        ∧ ∀ j, j ≠ i → v.get j = s.env.set.times.get j)
  ∧ (∀ (h : Hdr) (n : Byte) (l1 l2 : List Byte) (s : State), s.manages h →
    ((14 < n.toNat ∨ segmentsOf l1 = none ∨ segmentsOf l2 = none
        ∨ (∃ g ∈ [l1, l2], ∃ k, segmentsOf g = some k ∧ 12 < k.length)) →
      exec (.loadTemplate h n l1 l2) s = .next (s.replied h .badValue .nothing))
    ∧ ∀ (i : Fin 15) (a b : List Segment), n.toNat = i.val → segmentsOf l1 = some a → segmentsOf l2 = some b →
      a.length ≤ 12 → b.length ≤ 12 →
      ∃ v : Vector Template 15, ∃ y : State,
        y = s.withSet (fun t => { t with templates := v })
        ∧ exec (.loadTemplate h n l1 l2) s
          = .next (({ y with plant := y.plant.judgeViews y.env } : State).replied h .accepted .nothing)
        ∧ v.get i = { line1 := truncateLine 40 a, line2 := truncateLine 40 b }
        ∧ ∀ j, j ≠ i → v.get j = s.env.set.templates.get j))
  ∧ ((∀ (bs : List Byte) (plain : Byte → Prop),
    (plain = fun b => b.toNat ∈ [0x20, 0x2E, 0x2C, 0x3A, 0x2D, 0x2F, 0x28, 0x29, 0x23]
      ∨ (0x30 ≤ b.toNat ∧ b.toNat ≤ 0x39) ∨ (0x41 ≤ b.toNat ∧ b.toNat ≤ 0x5A)) →
    (segmentsOf bs = none ↔ ∃ b ∈ bs, ¬ plain b ∧ ¬(0x80 ≤ b.toNat ∧ b.toNat ≤ 0x89))
    ∧ (bs = [] → segmentsOf bs = some [])
    ∧ ∀ b l, segmentsOf bs = some l →
      (∀ i w, (b.toNat, i, w) ∈ [(0x80, Insert.vol, 6), (0x81, .ser2, 6), (0x82, .drv, 2), (0x83, .slot, 2), (0x84, .cell, 4),
          (0x85, .acct, 3), (0x86, .acc, 1), (0x87, .code, 12), (0x88, .opens, 3), (0x89, .hold, 4)] →
        segmentsOf (b :: bs) = some (.ins i w :: l))
      ∧ (plain b → (∀ u r, l = .lit u :: r → segmentsOf (b :: bs) = some (.lit (b :: u) :: r))
          ∧ ((∀ u r, l ≠ .lit u :: r) → segmentsOf (b :: bs) = some (.lit [b] :: l))))
  ∧ ∀ (l : List Segment) (wide : Segment → Nat), (∀ t, wide (.lit t) = t.length) → (∀ i w, wide (.ins i w) = w) →
    (∀ g ∈ l, 0 < wide g) →
    ((l.map wide).sum ≤ 40 → truncateLine 40 l = l)
    ∧ ∀ u g v n, l = u ++ g :: v → n + (u.map wide).sum = 40 →
      (n = 0 → truncateLine 40 l = u)
      ∧ (0 < n → n < wide g → (∀ t, g = .lit t → truncateLine 40 l = u ++ [.lit (t.take n)])
          ∧ ∀ i w, g = .ins i w → truncateLine 40 l = u ++ [.ins i n]))
  ∧ ((∀ (h : Hdr) (c : Byte) (fee granule price wear : BitVec 16) (s : State), s.manages h →
    ((7 < c.toNat ∨ granule = 0 ∨ 36000 < granule.toNat) →
      exec (.loadRate h c fee granule price wear) s = .next (s.replied h .badValue .nothing))
    ∧ ∀ i : Fin 8, c.toNat = i.val → 1 ≤ granule.toNat → granule.toNat ≤ 36000 →
      ∃ v : Vector Rate 8,
        exec (.loadRate h c fee granule price wear) s
          = .next ((s.withSet fun t => { t with rates := v }).replied h .accepted .nothing)
        ∧ v.get i = { fee := fee.toNat, granule := granule.toNat, price := price.toNat, wear := wear.toNat }
        ∧ ∀ j, j ≠ i → v.get j = s.env.set.rates.get j)
  ∧ (∀ (h : Hdr) (ps : List (BitVec 16 × Byte)) (s : State), s.manages h →
    ((4 < ps.length ∨ (∃ p ∈ ps, 1439 < p.1.toNat) ∨ ¬(ps.map fun p => p.1).Nodup) →
      exec (.loadShifts h ps) s = .next (s.replied h .badValue .nothing))
    ∧ (ps.length ≤ 4 → (∀ p ∈ ps, p.1.toNat ≤ 1439) → (ps.map fun p => p.1).Nodup →
      ∃ l : List Period,
        exec (.loadShifts h ps) s = .next ((s.withSet fun t => { t with shifts := l }).replied h .accepted .nothing)
        ∧ shiftsOk l ∧ l.Perm (ps.map fun p => { start := p.1.toNat, factor := min 64 p.2.toNat })))
  ∧ (∀ (h : Hdr) (n k b f l : Byte) (s : State), s.manages h →
    ((63 < n.toNat ∨ 3 < k.toNat
        ∨ (k.getLsbD 0 = true ∧ (storageBay b.toNat = false ∨ l.toNat < f.toNat ∨ 15 < l.toNat))) →
      exec (.loadSweep h n k b f l) s = .next (s.replied h .badValue .nothing))
    ∧ ∀ i : Fin 64, n.toNat = i.val → k.toNat ≤ 3 →
      (k.getLsbD 0 = true → storageBay b.toNat = true ∧ f.toNat ≤ l.toNat ∧ l.toNat ≤ 15) →
      ∃ v : Vector SweepEntry 64,
        exec (.loadSweep h n k b f l) s = .next ((s.withSet fun t => { t with sweep := v }).replied h .accepted .nothing)
        ∧ (k.getLsbD 0 = false → v.get i = .fin)
        ∧ (k.getLsbD 0 = true → v.get i = .range b.toNat f.toNat l.toNat (k.getLsbD 1))
        ∧ ∀ j, j ≠ i → v.get j = s.env.set.sweep.get j))

/-- R32: SET PACE takes set A, B or C, or D with N clamped to 2–15 and an h of 2, 4 or 6; any other letter or h is
BAD VALUE. Taken, it replies ACCEPTED, and every path's pace state is judged afresh; that ACCEPTED stands before the
statuses (log 51) and that path 0 is judged first (log 75) are the model's choices. R33: a FLOWING path whose depth is
at or above the PACE mark becomes PACED with the status PACE, a PACED path whose depth is at or below the RESUME mark
FLOWING with the status RESUME, and no other path changes. -/
def Obligations.PaceFollowsTheMarks : Prop :=
  (∀ (h : Hdr) (l n y : Byte) (s : State), s.manages h →
    ((3 < l.toNat ∨ (l = 3 ∧ y ≠ 2 ∧ y ≠ 4 ∧ y ≠ 6)) →
      exec (.setPace h l n y) s = .next (s.replied h .badValue .nothing))
    ∧ ∀ p : PaceSet,
      ((l = 0 ∧ p = .A) ∨ (l = 1 ∧ p = .B) ∨ (l = 2 ∧ p = .C)
        ∨ (l = 3 ∧ (y = 2 ∨ y = 4 ∨ y = 6) ∧ p = .D (max 2 (min 15 n.toNat)) y.toNat)) →
      exec (.setPace h l n y) s
        = .next (((((s.withSet fun t => { t with pace := p }).replied h .accepted .nothing).judgePace 0).judgePace 1).judgePace
            2 |>.judgePace 3))
  ∧ ((PaceSet.A.pace = 12 ∧ PaceSet.A.resume = 6 ∧ PaceSet.B.pace = 14 ∧ PaceSet.B.resume = 10 ∧ PaceSet.C.pace = 8
    ∧ PaceSet.C.resume = 2 ∧ ∀ n y, (PaceSet.D n y).pace = n ∧ (PaceSet.D n y).resume = n - y)
  ∧ ∀ (p : Path) (s : State),
    (s.oiu.paced.get p = false → s.env.set.pace.pace ≤ (s.oiu.queues.get p).length →
      (s.judgePace p).oiu.paced.get p = true ∧ (s.judgePace p).plant = (s.withC (.status p none .path .pace)).plant)
    ∧ (s.oiu.paced.get p = true → (s.oiu.queues.get p).length ≤ s.env.set.pace.resume →
      (s.judgePace p).oiu.paced.get p = false ∧ (s.judgePace p).plant = (s.withC (.status p none .path .resume)).plant)
    ∧ (s.oiu.paced.get p = false → (s.oiu.queues.get p).length < s.env.set.pace.pace → s.judgePace p = s)
    ∧ (s.oiu.paced.get p = true → s.env.set.pace.resume < (s.oiu.queues.get p).length → s.judgePace p = s)
    ∧ (s.judgePace p).oiu.queues = s.oiu.queues ∧ (s.judgePace p).env = s.env ∧ (s.judgePace p).acu = s.acu
    ∧ ∀ q, q ≠ p → (s.judgePace p).oiu.paced.get q = s.oiu.paced.get q)

/-- R4, R6, R7, R14, R18, R22: from every state whose library tables agree with one another (`Plant.tablesOk`), every
step leaves them so: one entry to a serial, in order and at most 4,096; no two volumes at one location but OUTSIDE and
UNKNOWN; a cell OCCUPIED by a volume exactly where that volume is located there; a cell's home-of exactly the volume whose
home it is; MISFILED exactly for a resident in a cell other than its home; the pool exactly the volumes with SCRATCH, each
once. That another volume believed where one comes to becomes UNKNOWN is the model's reading (log 43); that the cell map
lists only the cells that are not EMPTY or are a home is its own form (log 8). -/
def Obligations.LibraryTablesStayConsistent : Prop :=
  ∀ s t : State, s.plant.tablesOk → step s = .next t → t.plant.tablesOk

/-! ### The library tables -/

/-- R3, R229: a serial's six characters read back as that serial, six characters are read as one serial at most, and
the order of serials is the order of their characters compared from the left, digits before letters. R1, R2: the 1,744 cells of the storage bays, and what each accessor reaches: A bays 0–79 and B bays 48–127, so
drives 0–15 stand within A's reach and 16–31 within B's, and every rack slot within both. R19: the free-cell choice
takes an EMPTY cell that is home to no volume, and no such cell stands nearer bay 64, or as near with a lower
number; it reports none only when no storage cell qualifies. -/
def Obligations.SerialsBaysReachAndFreeCell : Prop :=
  ((∀ s : Serial, serialOf (serialBytes s) = some s)
  ∧ (∀ (b : List Byte) (s : Serial), serialOf b = some s → serialBytes s = b)
  ∧ (∀ b : List Byte, serialOf b ≠ none ↔
      (b.length = 6 ∧ ∀ c ∈ b, (0x30 ≤ c.toNat ∧ c.toNat ≤ 0x39) ∨ (0x41 ≤ c.toNat ∧ c.toNat ≤ 0x5A)))
  ∧ ∀ s t : Serial, s < t ↔
      ∃ (p u v : List Byte) (a b : Byte), serialBytes s = p ++ a :: u ∧ serialBytes t = p ++ b :: v ∧ a.toNat < b.toNat)
  ∧ (((List.range 2048).filter validCell).length = 1744
  ∧ (∀ c, validCell c = true ↔ (c < 2048 ∧ c / 16 ≠ 56 ∧ c / 16 ≠ 64 ∧ c / 16 ≠ 72
      ∧ ¬(8 ≤ c / 16 ∧ c / 16 ≤ 15) ∧ ¬(112 ≤ c / 16 ∧ c / 16 ≤ 119)))
  ∧ (∀ c, (Location.cell c).within .A = true ↔ c < 1280)
  ∧ (∀ c, (Location.cell c).within .B = true ↔ (768 ≤ c ∧ c < 2048))
  ∧ (∀ d : DriveNo, ((Location.drive d).within .A = true ↔ d.val < 16) ∧ ((Location.drive d).within .B = true ↔ 16 ≤ d.val))
  ∧ (∀ (n : Fin 8) (h : Fin 4) (a : Acc), (Location.entry n).within a = true ∧ (Location.service n).within a = true
      ∧ (Location.handoff h).within a = true)
  ∧ ∀ a b : Acc, ((Location.gripper a).within b = true ↔ a = b) ∧ Location.outside.within a = false
      ∧ Location.unknown.within a = false)
  ∧ (∀ x : Plant,
    (∀ c, x.freeCell = some c →
      validCell c = true ∧ (x.cell c).occ = .empty ∧ (x.cell c).homeOf = none
      ∧ ∀ b, validCell b = true → (x.cell b).occ = .empty → (x.cell b).homeOf = none →
        (Int.natAbs ((c / 16 : Nat) - 64 : Int) < Int.natAbs ((b / 16 : Nat) - 64 : Int)
          ∨ (Int.natAbs ((c / 16 : Nat) - 64 : Int) = Int.natAbs ((b / 16 : Nat) - 64 : Int) ∧ c ≤ b)))
    ∧ (x.freeCell = none → ∀ b, validCell b = true → (x.cell b).occ ≠ .empty ∨ (x.cell b).homeOf ≠ none))

/-- R4: a record put in the volume table is read back by its serial, every other serial's record is as before, the
table stays in strictly rising serial order, and a record put over one of its serial adds no entry; a dropped serial
is held no more. The cell map reads what was written, cell by cell, and keeps its one form: numbers strictly rising
and no entry that reads as an unlisted cell does; that form is the model's own (log 8). R6, R7: a write of a location
moves the record and what names it in one action: the cell or slot left becomes EMPTY, the cell or slot come to is
OCCUPIED by the volume, the gripper come to shows it; a gripper left that still shows it shows UNKNOWN REEL (the
model's choice, log 80), and no other slot or gripper changes; MISFILED stands exactly for a resident in a cell other
than its home; no other cell changes, and no other volume but one that the table had at the very place come to, which
becomes UNKNOWN (the model's reading, log 43). -/
def Obligations.TablesReadWhatWasWrittenAndVolumesMove : Prop :=
  ((∀ (x : Plant) (v : Volume),
    (x.putVol v).vol? v.serial = some v
    ∧ (∀ q, q ≠ v.serial → (x.putVol v).vol? q = x.vol? q)
    ∧ (x.ltu.volumes.Pairwise (fun a b => a.serial < b.serial) →
        (x.putVol v).ltu.volumes.Pairwise (fun a b => a.serial < b.serial)
        ∧ (x.vol? v.serial ≠ none → (x.putVol v).ltu.volumes.length = x.ltu.volumes.length)
        ∧ (x.vol? v.serial = none → (x.putVol v).ltu.volumes.length = x.ltu.volumes.length + 1))
    ∧ (∀ s, (x.dropVol s).vol? s = none ∧ ∀ q, q ≠ s → (x.dropVol s).vol? q = x.vol? q)
    ∧ ∀ (s : Serial) (f : Volume → Volume), (∀ w, (f w).serial = w.serial) →
        (x.updVol s f).vol? s = (x.vol? s).map f ∧ ∀ q, q ≠ s → (x.updVol s f).vol? q = x.vol? q)
  ∧ (∀ (x : Plant) (r : CellRec),
    (x.putCell r).cell r.num = r ∧ (∀ c, c ≠ r.num → (x.putCell r).cell c = x.cell c)
    ∧ (x.ltu.cells.Pairwise (fun a b => a.num < b.num) → (∀ w ∈ x.ltu.cells, w.occ ≠ .empty ∨ w.homeOf ≠ none) →
        (x.putCell r).ltu.cells.Pairwise (fun a b => a.num < b.num)
        ∧ ∀ w ∈ (x.putCell r).ltu.cells, w.occ ≠ .empty ∨ w.homeOf ≠ none)))
  ∧ (∀ (x : Plant) (s : Serial) (v : Volume) (l : Location), x.vol? s = some v →
    ∃ w, (x.moveVol s l).vol? s = some w ∧ w.loc = l ∧ w.home = v.home ∧ w.bound = v.bound ∧ w.cls = v.cls
      ∧ (w.misfiled = true ↔ (w.cls = .resident ∧ ∃ c, l = .cell c ∧ v.home ≠ some c))
      ∧ (w.misfiled = false → w.refilePending = false)
      ∧ (∀ q u, q ≠ s → x.vol? q = some u →
          ((u.loc ≠ l ∨ l = .outside ∨ l = .unknown) → (x.moveVol s l).vol? q = some u)
          ∧ (u.loc = l → l ≠ .outside → l ≠ .unknown → (x.moveVol s l).vol? q
              = some { u with loc := .unknown, misfiled := false, refilePending := false }))
      ∧ (∀ q, x.vol? q = none → (x.moveVol s l).vol? q = none)
      ∧ (∀ c, l = .cell c → ((x.moveVol s l).cell c).occ = .occupied s)
      ∧ (∀ c, v.loc = .cell c → (x.cell c).occ = .occupied s → l ≠ .cell c → ((x.moveVol s l).cell c).occ = .empty)
      ∧ (∀ c, v.loc ≠ .cell c → l ≠ .cell c → (x.moveVol s l).cell c = x.cell c)
      ∧ (∀ c, ((x.moveVol s l).cell c).homeOf = (x.cell c).homeOf)
      ∧ (∀ n, l = .service n → ((x.moveVol s l).service n).state = .occupied
          ∧ ((x.moveVol s l).service n).content = some (.known s))
      ∧ (∀ n, l = .entry n → ((x.moveVol s l).entry n).state = .occupied
          ∧ ((x.moveVol s l).entry n).content = some (.known s))
      ∧ (∀ n, v.loc = .service n → (x.service n).content = some (.known s) → l ≠ .service n →
          (x.moveVol s l).service n = Slot.clear)
      ∧ (∀ n, v.loc = .entry n → (x.entry n).content = some (.known s) → l ≠ .entry n →
          (x.moveVol s l).entry n = Slot.clear)
      ∧ (∀ h, l = .handoff h → ((x.moveVol s l).handoff h).state = .occupied
          ∧ ((x.moveVol s l).handoff h).content = some (.known s))
      ∧ (∀ h, v.loc = .handoff h → (x.handoff h).content = some (.known s) → l ≠ .handoff h →
          (x.moveVol s l).handoff h = Slot.clear)
      ∧ (∀ a, l = .gripper a → ((x.moveVol s l).acc a).gripper = .known s)
      ∧ (∀ a, v.loc = .gripper a → (x.acc a).gripper = .known s → l ≠ .gripper a →
          ((x.moveVol s l).acc a).gripper = .unknownReel)
      ∧ ((∀ n, v.loc ≠ .service n → l ≠ .service n → (x.moveVol s l).service n = x.service n)
        ∧ (∀ n, v.loc ≠ .entry n → l ≠ .entry n → (x.moveVol s l).entry n = x.entry n)
        ∧ (∀ h, v.loc ≠ .handoff h → l ≠ .handoff h → (x.moveVol s l).handoff h = x.handoff h)
        ∧ ∀ a, (x.moveVol s l).acc a = { x.acc a with gripper := ((x.moveVol s l).acc a).gripper }
            ∧ (v.loc ≠ .gripper a → l ≠ .gripper a → (x.moveVol s l).acc a = x.acc a))
      ∧ (x.moveVol s l).ltu.pool = x.ltu.pool ∧ (x.moveVol s l).tcu = x.tcu ∧ (x.moveVol s l).dru = x.dru
      ∧ (x.moveVol s l).pru = x.pru ∧ (x.moveVol s l).out = x.out)

/-- R10: the checks of LOAD VOLUME in their order, each with its reply and no other effect. That a location kind other than
CELL, OUTSIDE and UNKNOWN is BAD VALUE, and that a number beside OUTSIDE or UNKNOWN is not judged, are the model's readings
(log 28). R10, R11: LOAD VOLUME that passes its checks gives the record the values of the command with WORN clear and the home
that R10 gives it (the number given, the cell of its location, or the free-cell choice; none for a visitor), makes the
home cell home to it and the old home to none, puts it at its location, and has it in the scratch pool exactly when
SCRATCH is given; it replies ACCEPTED, and no other volume changes, none being located at that cell or at its home. That
flag bits above the three are ignored (log 9), that a number beside OUTSIDE or UNKNOWN is not judged (log 28), and that a
refile request it makes (R7) may bind the volume and reserve its home at once (log 47) are the model's readings. -/
def Obligations.LoadVolumeIsRefusedInOrderOrApplied : Prop :=
  (∀ (h : Hdr) (f : VolumeFields) (s : State), s.manages h →
    ((serialOf f.serial = none ∨ (f.cls ≠ 0 ∧ f.cls ≠ 1) ∨ (f.ring ≠ 0 ∧ f.ring ≠ 1)
        ∨ (f.locKind ≠ 0 ∧ f.locKind ≠ 6 ∧ f.locKind ≠ 7)) →
      exec (.loadVolume h f) s = .next (s.replied h .badValue .nothing))
    ∧ ∀ l, l.givenBy f →
      (∀ v, s.plant.vol? l.serial = some v → v.bound ≠ none →
        exec (.loadVolume h f) s = .next (s.replied h .bound .nothing))
      ∧ (∀ v, s.plant.vol? l.serial = some v → v.bound = none → (∀ c, v.loc ≠ .cell c) → v.loc ≠ .outside →
        v.loc ≠ .unknown → exec (.loadVolume h f) s = .next (s.replied h .location .nothing))
      ∧ (s.plant.vol? l.serial = none → 4096 ≤ s.plant.ltu.volumes.length →
        exec (.loadVolume h f) s = .next (s.replied h .tableFull .nothing))
      ∧ (s.plant.entryLoads l →
        (∀ c, l.loc = .cell c → validCell c = false →
          exec (.loadVolume h f) s = .next (s.replied h .badValue .nothing))
        ∧ (∀ c, l.loc = .cell c → validCell c = true →
          ((∃ v t, (s.plant.cell c).occ = .reserved v t) ∨ (∃ v, v ≠ l.serial ∧ (s.plant.cell c).occ = .occupied v)) →
          exec (.loadVolume h f) s = .next (s.replied h .occupied .nothing))
        ∧ (s.plant.cellLoads l → l.cls = .visitor → (l.home ≠ .absent ∨ ∃ c, l.loc = .cell c) →
          exec (.loadVolume h f) s = .next (s.replied h .badValue .nothing))
        ∧ (s.plant.cellLoads l → l.cls = .resident →
          (∀ c, l.home = .cell c → validCell c = false →
            exec (.loadVolume h f) s = .next (s.replied h .badValue .nothing))
          ∧ (∀ c, l.home = .cell c → validCell c = true → ¬ s.plant.homeFree l c →
            exec (.loadVolume h f) s = .next (s.replied h .occupied .nothing))
          ∧ ((l.home = .choose ∨ (l.home = .absent ∧ ∀ c, l.loc = .cell c → ¬ s.plant.homeFree l c)) →
              s.plant.freeCell = none → exec (.loadVolume h f) s = .next (s.replied h .noCell .nothing)))))
  ∧ ∀ (h : Hdr) (f : VolumeFields) (l : VolumeLoad) (home : Option CellNo) (s : State), s.manages h →
    l.givenBy f → s.plant.entryLoads l → s.plant.cellLoads l → s.plant.homeGiven l home →
    ∃ (y : Plant) (v : Volume), exec (.loadVolume h f) s = .next { s with plant := y.settle s.env }
      ∧ y.vol? l.serial = some v ∧ v.cls = l.cls ∧ v.home = home ∧ v.loc = l.loc ∧ v.ring = l.ring
      ∧ v.scratch = f.flags.getLsbD 0 ∧ v.watch = f.flags.getLsbD 1 ∧ v.ringPull = f.flags.getLsbD 2
      ∧ v.worn = false ∧ v.mounts = f.mounts.toNat ∧ v.footage = f.footage.toNat ∧ v.fails = f.fails.toNat
      ∧ (v.misfiled = true ↔ (l.cls = .resident ∧ ∃ c, l.loc = .cell c ∧ home ≠ some c))
      ∧ (v.misfiled = false → v.bound = none ∧ v.refilePending = false)
      ∧ (∀ c, l.cls = .resident → home = some c → (y.cell c).homeOf = some l.serial)
      ∧ (∀ c, l.loc = .cell c → (y.cell c).occ = .occupied l.serial)
      ∧ (∀ w c, s.plant.vol? l.serial = some w → w.home = some c → home ≠ some c → (y.cell c).homeOf = none)
      ∧ (∀ q u, q ≠ l.serial → s.plant.vol? q = some u → (∀ c, u.loc = .cell c → l.loc ≠ .cell c ∧ home ≠ some c) →
          y.vol? q = some u)
      ∧ (∀ q, q ≠ l.serial → s.plant.vol? q = none → y.vol? q = none)
      ∧ (l.serial ∈ y.ltu.pool ↔ f.flags.getLsbD 0 = true)
      ∧ y.ltu.pool.filter (fun q => q ≠ l.serial) = s.plant.ltu.pool.filter (fun q => q ≠ l.serial)
      ∧ CFrame.reply h.path h.tag .accepted .nothing ∈ y.out.c ∧ y.dru = s.plant.dru ∧ y.adu = s.plant.adu

/-- R12: DELETE VOLUME's checks in their order, and its effect: the entry is gone, its home cell is home to none, it
has left the pool, ACCEPTED is replied, and no other volume changes. R13: SET VOLUME FLAGS' checks in their order,
and its effect: each flag named is set or cleared, any other is as it was, and the volume stands in the pool exactly
as SCRATCH says, keeping its place where it stood there already. That a bit of either set that names no flag is
ignored is the model's reading (log 9). -/
def Obligations.VolumesAreDeletedAndFlagged : Prop :=
  (∀ (h : Hdr) (b : List Byte) (s : State), s.manages h →
    (serialOf b = none → exec (.deleteVolume h b) s = .next (s.replied h .badValue .nothing))
    ∧ (∀ q, serialOf b = some q → s.plant.vol? q = none →
        exec (.deleteVolume h b) s = .next (s.replied h .notFound .nothing))
    ∧ ∀ q v, serialOf b = some q → s.plant.vol? q = some v →
      (v.bound ≠ none → exec (.deleteVolume h b) s = .next (s.replied h .bound .nothing))
      ∧ (v.bound = none → s.env.fenced q = true →
          exec (.deleteVolume h b) s = .next (s.replied h .fenced .nothing))
      ∧ (v.bound = none → s.env.fenced q = false → v.loc ≠ .outside → v.loc ≠ .unknown →
          exec (.deleteVolume h b) s = .next (s.replied h .location .nothing))
      ∧ (v.bound = none → s.env.fenced q = false → (v.loc = .outside ∨ v.loc = .unknown) →
          ∃ y : Ltu, exec (.deleteVolume h b) s = .next (({ s with plant := { s.plant with ltu := y } } : State).replied h .accepted .nothing)
            ∧ ({ s.plant with ltu := y } : Plant).vol? q = none
            ∧ (∀ r, r ≠ q → ({ s.plant with ltu := y } : Plant).vol? r = s.plant.vol? r)
            ∧ y.pool = s.plant.ltu.pool.filter (fun r => r ≠ q)
            ∧ (∀ c, v.home = some c → ({ s.plant with ltu := y } : Plant).cell c
                = { s.plant.cell c with num := c, homeOf := none })
            ∧ (∀ c, v.home ≠ some c → ({ s.plant with ltu := y } : Plant).cell c = s.plant.cell c)
            ∧ y.entry = s.plant.ltu.entry ∧ y.service = s.plant.ltu.service))
  ∧ (∀ (h : Hdr) (b : List Byte) (on off : Byte) (s : State), s.manages h →
    ((serialOf b = none ∨ ∃ k, k < 3 ∧ on.getLsbD k = true ∧ off.getLsbD k = true) →
      exec (.setVolumeFlags h b on off) s = .next (s.replied h .badValue .nothing))
    ∧ ∀ q, serialOf b = some q → (∀ k, k < 3 → ¬(on.getLsbD k = true ∧ off.getLsbD k = true)) →
      (s.plant.vol? q = none → exec (.setVolumeFlags h b on off) s = .next (s.replied h .notFound .nothing))
      ∧ ∀ v, s.plant.vol? q = some v →
        (v.bound ≠ none → exec (.setVolumeFlags h b on off) s = .next (s.replied h .bound .nothing))
        ∧ (v.bound = none →
          ∃ (y : Ltu) (w : Volume), exec (.setVolumeFlags h b on off) s
              = .next (({ s with plant := { s.plant with ltu := y } } : State).replied h .accepted .nothing)
            ∧ w = { v with scratch := if on.getLsbD 0 then true else if off.getLsbD 0 then false else v.scratch,
                           watch := if on.getLsbD 1 then true else if off.getLsbD 1 then false else v.watch,
                           ringPull := if on.getLsbD 2 then true else if off.getLsbD 2 then false else v.ringPull }
            ∧ ({ s.plant with ltu := y } : Plant).vol? q = some w
            ∧ (∀ r, r ≠ q → ({ s.plant with ltu := y } : Plant).vol? r = s.plant.vol? r)
            ∧ y.pool = (if w.scratch then (if q ∈ s.plant.ltu.pool then s.plant.ltu.pool else s.plant.ltu.pool ++ [q])
                        else s.plant.ltu.pool.filter (fun r => r ≠ q))
            ∧ y.cells = s.plant.ltu.cells ∧ y.entry = s.plant.ltu.entry ∧ y.service = s.plant.ltu.service))

/-- R24: the reads of the library tables show the entry asked for as it stands, answer NOT FOUND, END or BAD VALUE
where there is none, and change nothing else. -/
def Obligations.TableReadsShowTheEntries : Prop :=
  (∀ (h : Hdr) (b : List Byte) (s : State), s.manages h →
    (serialOf b = none → exec (.readVolume h b) s = .next (s.replied h .badValue .nothing))
    ∧ ∀ q, serialOf b = some q →
      (s.plant.vol? q = none → exec (.readVolume h b) s = .next (s.replied h .notFound .nothing))
      ∧ ∀ v, s.plant.vol? q = some v →
        exec (.readVolume h b) s = .next (s.replied h .data (.volume v (s.env.fenced q))))
  ∧ (∀ (h : Hdr) (b : List Byte) (s : State), s.manages h →
    (b ≠ List.replicate 6 0xFF#8 → serialOf b = none → exec (.readNextVolume h b) s = .next (s.replied h .badValue .nothing))
    ∧ ∀ above : Serial → Prop,
      ((b = List.replicate 6 0xFF#8 ∧ above = fun _ => True) ∨ (∃ q, serialOf b = some q ∧ above = fun r => q < r)) →
      ((∀ v ∈ s.plant.ltu.volumes, ¬ above v.serial) → exec (.readNextVolume h b) s = .next (s.replied h .ends .nothing))
      ∧ ∀ (l r : List Volume) (v : Volume), s.plant.ltu.volumes = l ++ v :: r → (∀ w ∈ l, ¬ above w.serial) →
        above v.serial → exec (.readNextVolume h b) s = .next (s.replied h .data (.volume v (s.env.fenced v.serial))))
  ∧ (∀ (h : Hdr) (c : BitVec 16) (s : State), s.manages h →
    (validCell c.toNat = false → exec (.readCell h c) s = .next (s.replied h .badValue .nothing))
    ∧ (validCell c.toNat = true → exec (.readCell h c) s = .next (s.replied h .data (.cell (s.plant.cell c.toNat)))))
  ∧ (∀ (h : Hdr) (k n : Byte) (s : State), s.manages h →
    (∀ i : Fin 8, k = 0 → n.toNat = i.val → exec (.readSlot h k n) s = .next (s.replied h .data (.slot (s.plant.entry i))))
    ∧ (∀ i : Fin 8, k = 1 → n.toNat = i.val → exec (.readSlot h k n) s = .next (s.replied h .data (.slot (s.plant.service i))))
    ∧ (∀ i : Fin 4, k = 2 → n.toNat = i.val → exec (.readSlot h k n) s = .next (s.replied h .data (.slot (s.plant.handoff i))))
    ∧ ((2 < k.toNat ∨ 7 < n.toNat ∨ (k = 2 ∧ 3 < n.toNat)) →
        exec (.readSlot h k n) s = .next (s.replied h .badValue .nothing)))
  ∧ ∀ (h : Hdr) (i : BitVec 16) (s : State), s.manages h →
    (s.plant.ltu.pool.length ≤ i.toNat →
      exec (.readPool h i) s = .next (s.replied h .ends (.length 2 s.plant.ltu.pool.length)))
    ∧ ∀ v, s.plant.ltu.pool[i.toNat]? = some v →
      exec (.readPool h i) s = .next (s.replied h .data (.pool v s.plant.ltu.pool.length))

/-! ### Orders -/

/-- R28, R29: the arrival checks of all seven order rows, in their order: NOT READY unless the library is RUNNING or
RESTARTING, BAD ORDER for a malformed order (a kind that is none of the six among them), TAG IN USE for a tag live
on the path, BUSY for a mount kind over a queue of 16. A refusal is the one final status and changes nothing else. A
tag is live on a path exactly while an order with it waits in the path's queue, an unanswered task has it as its
origin, or a task has it as its dismount requester. -/
def Obligations.ArrivalChecksRefuseInOrder : Prop :=
  (∀ (c : Instr) (h : Hdr) (ok mk : Bool) (s : State), arrivalOf c = some (h, ok, mk) → s.free →
    ((s.plant.mgu.lib = .starting ∨ s.plant.mgu.lib = .loading) → exec c s = .next (s.finished h .notReady))
    ∧ ((s.plant.mgu.lib = .running ∨ s.plant.mgu.lib = .restarting) →
      ((h.sized = false ∨ ok = false) → exec c s = .next (s.finished h .badOrder))
      ∧ (h.sized = true → ok = true →
        (s.tagLive h.path h.tag = true → exec c s = .next (s.finished h .tagInUse))
        ∧ (s.tagLive h.path h.tag = false → mk = true → 16 ≤ (s.oiu.queues.get h.path).length →
          exec c s = .next (s.finished h .busy)))))
  ∧ (∀ (p : Path) (tag : Byte) (s : State), s.tagLive p tag = true ↔
    ((∃ o ∈ s.oiu.queues.get p, o.tag = tag)
      ∨ (∃ t k, s.plant.task? t = some k ∧ k.origin = .path p tag ∧ k.answered = false)
      ∨ ∃ t k, s.plant.task? t = some k ∧ k.requester = some (p, tag)))

/-- R27, R30, R31: a MOUNT or MOUNT SCRATCH that passes the arrival checks joins the tail of its path's queue with
its tag and its fields as received, QUEUED carries the new depth, and the pace is judged; nothing else changes. -/
def Obligations.MountOrdersJoinTheirQueue : Prop :=
  ∀ (h : Hdr) (a : Byte) (d : DriveNo) (s : State), s.orders h → (s.oiu.queues.get h.path).length < 16 →
    (∀ (b : List Byte) (q : Serial) (i : Intent) (x y : Byte), serialOf b = some q → driveOf x = some d →
      intentOf y = some i →
      ∃ v, exec (.mount h b x y a) s
          = .next (State.judgePace h.path (({ s with oiu := { s.oiu with queues := v } } : State).withC
              (.status h.path (some h.tag) .interim (.queued ((s.oiu.queues.get h.path).length + 1)))))
        ∧ v.get h.path = s.oiu.queues.get h.path ++ [{ tag := h.tag, kind := .mount q i, drive := d, account := a }]
        ∧ ∀ p, p ≠ h.path → v.get p = s.oiu.queues.get p)
    ∧ ∀ x : Byte, driveOf x = some d →
      ∃ v, exec (.mountScratch h x a) s
          = .next (State.judgePace h.path (({ s with oiu := { s.oiu with queues := v } } : State).withC
              (.status h.path (some h.tag) .interim (.queued ((s.oiu.queues.get h.path).length + 1)))))
        ∧ v.get h.path = s.oiu.queues.get h.path ++ [{ tag := h.tag, kind := .scratch, drive := d, account := a }]
        ∧ ∀ p, p ≠ h.path → v.get p = s.oiu.queues.get p

/-- R35, R36: a query that passes the arrival checks is answered at once from the table as it stands, and changes
nothing else: INFO with the contents the rule lists, NOT FOUND for a serial not in the table, NO DRIVE for a drive
not present, NOT REACHABLE for one whose path mask leaves the path out. -/
def Obligations.QueriesAreAnsweredAtOnce : Prop :=
  (∀ (h : Hdr) (b : List Byte) (q : Serial) (s : State), s.orders h → serialOf b = some q →
    (s.plant.vol? q = none → exec (.queryVolume h b) s = .next (s.finished h .notFound))
    ∧ ∀ v, s.plant.vol? q = some v →
      exec (.queryVolume h b) s = .next (s.finished h (.infoVolume
        { cls := v.cls, loc := v.loc, ring := v.ring, scratch := v.scratch, watch := v.watch, ringPull := v.ringPull,
          misfiled := v.misfiled, worn := v.worn, fenced := s.env.fenced v.serial, bound := v.bound.isSome,
          mounts := v.mounts, fails := v.fails })))
  ∧ ∀ (h : Hdr) (b : Byte) (d : DriveNo) (s : State), s.orders h → driveOf b = some d →
    ((s.plant.drive d).present = false → exec (.queryDrive h b) s = .next (s.finished h .noDrive))
    ∧ ((s.plant.drive d).present = true → (s.plant.drive d).mask.getLsbD h.path.val = false →
        exec (.queryDrive h b) s = .next (s.finished h .notReachable))
    ∧ ((s.plant.drive d).present = true → (s.plant.drive d).mask.getLsbD h.path.val = true →
        exec (.queryDrive h b) s = .next (s.finished h (.infoDrive
          { state := (s.plant.drive d).state, preFault := (s.plant.drive d).preFault, volume := (s.plant.drive d).volume,
            bound := (s.plant.drive d).bound.isSome, offlinePending := (s.plant.drive d).offlinePending,
            mask := (s.plant.drive d).mask })))

/-- R37: a DISMOUNT that passes the arrival checks is refused NO DRIVE, NOT REACHABLE, NOT MOUNTED or ALREADY
DISMOUNTING, in that order; otherwise it becomes the requester of the drive's bound task, with no status, and a
MOUNTED drive is sent UNLOAD and becomes UNLOADING with its task (R38). -/
def Obligations.DismountAttachesToItsTask : Prop :=
  ∀ (h : Hdr) (b : Byte) (d : DriveNo) (s : State), s.orders h → driveOf b = some d →
    ((s.plant.drive d).present = false → exec (.dismount h b) s = .next (s.finished h .noDrive))
    ∧ ((s.plant.drive d).present = true →
      ((s.plant.drive d).mask.getLsbD h.path.val = false → exec (.dismount h b) s = .next (s.finished h .notReachable))
      ∧ ((s.plant.drive d).mask.getLsbD h.path.val = true →
        ((s.plant.drive d).state ≠ .mounted → (s.plant.drive d).state ≠ .unloading → (s.plant.drive d).state ≠ .unloaded →
          exec (.dismount h b) s = .next (s.finished h .notMounted))
        ∧ ∀ t k, ((s.plant.drive d).state = .mounted ∨ (s.plant.drive d).state = .unloading
            ∨ (s.plant.drive d).state = .unloaded) →
          (s.plant.drive d).bound = some t → s.plant.task? t = some k →
          (k.requester ≠ none → exec (.dismount h b) s = .next (s.finished h .alreadyDismounting))
          ∧ (k.requester = none → (s.plant.drive d).state ≠ .mounted →
            ∃ v, exec (.dismount h b) s = .next { s with plant := { s.plant with tcu := { s.plant.tcu with tasks := v } } }
              ∧ v.get t = some { k with requester := some (h.path, h.tag) } ∧ ∀ u, u ≠ t → v.get u = s.plant.task? u)
          ∧ (k.requester = none → (s.plant.drive d).state = .mounted →
            ∃ v w, exec (.dismount h b) s = .next (State.withM (.drive d .unload)
                { s with plant := { s.plant with tcu := { s.plant.tcu with tasks := v }, dru := { drives := w } } })
              ∧ v.get t = some { k with requester := some (h.path, h.tag), state := .unloading }
              ∧ (∀ u, u ≠ t → v.get u = s.plant.task? u)
              ∧ w.get d = { s.plant.drive d with state := .unloading } ∧ ∀ c, c ≠ d → w.get c = s.plant.drive c)))

/-- R39, R40: CANCEL finds its target on its own path. An order in the queue leaves it, answered CANCELLED before CANCEL
TAKEN, and the pace is judged between; a dismount requester is TOO LATE; a task with a pending final status is ALREADY
ENDING; a tag that is live nowhere is TOO LATE where a task of that origin was answered MOUNTED, else NOT FOUND (log
38). R41: a CANCEL of an unanswered mount whose task waits, no step or leg of it in hand, its volume in a cell, nowhere, or in the
gripper of an accessor that is FAULTED or recovering, ends the task at once: its cell, service and handoff reservations are
given up, a prompt of its own is withdrawn and an accessor's stays, the
target is answered CANCELLED with its condition tags, then the CANCEL is answered CANCEL TAKEN, the record is free, the
volume is bound to it no more, and a RESERVED drive is EMPTY again. R41: with a step of its leg in flight the task takes
CANCELLED as its pending final status and MOU sends no further step of the leg; that nothing of it is given up before that
step completes, with the reel in the gripper too, is the model's reading of R42 (DEDUCED, log 39). R42: with the reel in a working accessor's
gripper, a handoff or a service slot and no step in flight, it takes that status and its RETURN leg goes to its home from
where the reel is, its drive binding given up and its own prompt withdrawn; a visitor in a service slot ends at once. R43: at a
THREADING drive it takes that status, a THREAD-FAIL prompt is withdrawn, the open mount ends, and the drive is sent UNLOAD or,
its reel unloaded already, the task is DEMOUNTING; the CANCEL is answered CANCEL TAKEN. That what the target
receives, and a RESUME, come before CANCEL TAKEN are the model's choices (logs 76 and 77). -/
def Obligations.CancelFindsItsTarget : Prop :=
  (∀ (h : Hdr) (g : Byte) (s : State), s.orders h →
    ((∃ o ∈ s.oiu.queues.get h.path, o.tag = g) →
      ∃ v, exec (.cancel h g) s = .next ((State.judgePace h.path (({ s with oiu := { s.oiu with queues := v } } : State).withC
            (.status h.path (some g) .last (.ended .cancelled 0)))).finished h .cancelTaken)
        ∧ v.get h.path = (s.oiu.queues.get h.path).filter (fun o => o.tag ≠ g)
        ∧ ∀ p, p ≠ h.path → v.get p = s.oiu.queues.get p)
    ∧ ((∀ o ∈ s.oiu.queues.get h.path, o.tag ≠ g) →
      ((∃ t k, s.plant.task? t = some k ∧ k.requester = some (h.path, g)) →
        exec (.cancel h g) s = .next (s.finished h .tooLate))
      ∧ ((∀ t k, s.plant.task? t = some k → k.requester ≠ some (h.path, g)) →
        ((∀ t k, s.plant.task? t = some k → k.origin = .path h.path g → k.answered = true) →
          ((∃ t k, s.plant.task? t = some k ∧ k.origin = .path h.path g ∧ k.mountedTick ≠ none) →
            exec (.cancel h g) s = .next (s.finished h .tooLate))
          ∧ ((∀ t k, s.plant.task? t = some k → k.origin = .path h.path g → k.mountedTick = none) →
            exec (.cancel h g) s = .next (s.finished h .notFound)))
        ∧ ∀ t k, s.plant.task? t = some k → k.origin = .path h.path g → k.answered = false →
          (∀ u m, s.plant.task? u = some m → m.origin = .path h.path g → u = t) → k.pending ≠ none →
          exec (.cancel h g) s = .next (s.finished h .alreadyEnding))))
  ∧ (∀ (h : Hdr) (g : Byte) (t : TaskNo) (k : Task) (q : Serial) (v : Volume) (d : DriveNo) (s : State), s.orders h →
    (∀ o ∈ s.oiu.queues.get h.path, o.tag ≠ g) →
    (∀ u m, s.plant.task? u = some m → m.requester ≠ some (h.path, g)) →
    s.plant.task? t = some k → k.origin = .path h.path g → k.answered = false → k.pending = none →
    (∀ u m, s.plant.task? u = some m → m.origin = .path h.path g → u = t) →
    k.requester = none →
    k.serial = some q → s.plant.vol? q = some v → (v.loc = .outside ∨ v.loc = .unknown ∨ (∃ c, v.loc = .cell c)
      ∨ ∃ a, v.loc = .gripper a ∧ ((s.plant.acc a).state = .faulted ∨ (s.plant.acc a).state = .recovering)) →
    (∀ a l, (s.plant.acc a).leg = some l → l.owner ≠ .task t) → (∀ n, (s.plant.entry n).task ≠ some t) →
    (∀ n, (s.plant.service n).task = some t → (s.plant.service n).state = .reserved ∧ k.service = some n) →
    (∀ h, (s.plant.handoff h).task = some t → (s.plant.handoff h).state = .reserved ∧ k.handoff = some h) →
    (s.plant.drive d).bound = some t → (s.plant.drive d).state = .reserved → (s.plant.drive d).offlinePending = false →
    (∀ c, (s.plant.drive c).bound = some t → c = d) →
    ∃ (y : Plant) (w : Volume), exec (.cancel h g) s = .next { s with plant := y.settle s.env }
      ∧ y.task? t = none ∧ (∀ u, u ≠ t → y.task? u = s.plant.task? u)
      ∧ y.vol? q = some w ∧ w.loc = v.loc ∧ w.bound ≠ some t
      ∧ y.drive d = { s.plant.drive d with bound := none, mountOpen := false, state := .empty }
      ∧ (∀ c, c ≠ d → y.drive c = s.plant.drive c) ∧ (∀ l ∈ y.mou.queue, l.owner ≠ .task t)
      ∧ (∀ n, (s.plant.service n).task = some t → y.service n = Slot.clear)
      ∧ (∀ n, (s.plant.handoff n).task = some t → y.handoff n = Slot.clear)
      ∧ (∀ c r, k.cell = some c → (s.plant.cell c).occ = .reserved r t → (y.cell c).occ = .empty)
      ∧ (∀ p ∈ s.plant.pru.table, k.prompt = some p.number → p.owner = .task t → s.plant.pru.backlog = [] →
          y.pru.table = s.plant.pru.table.filter (fun r => r.number ≠ p.number) ∧ y.pru.backlog = [])
      ∧ ((∀ p ∈ s.plant.pru.table, k.prompt = some p.number → p.owner ≠ .task t) →
          (∀ r ∈ s.plant.pru.waiting, k.prompt = some r.number → r.owner ≠ .task t) → y.pru = s.plant.pru)
      ∧ y.ltu.pool = s.plant.ltu.pool
      ∧ y.out.c = s.plant.out.c ++ [.status h.path (some g) .last (.ended .cancelled k.tags),
          .status h.path (some h.tag) .last .cancelTaken])
  ∧ ∀ (h : Hdr) (g : Byte) (t : TaskNo) (k : Task) (s : State), s.orders h →
    (∀ o ∈ s.oiu.queues.get h.path, o.tag ≠ g) →
    (∀ u m, s.plant.task? u = some m → m.requester ≠ some (h.path, g)) →
    s.plant.task? t = some k → k.origin = .path h.path g → k.answered = false → k.pending = none →
    (∀ u m, s.plant.task? u = some m → m.origin = .path h.path g → u = t) →
    (∀ a f l, (s.plant.acc a).step = some f → (s.plant.acc a).leg = some l → l.owner = .task t →
      (∀ m, (s.plant.acc a.other).leg = some m → m.owner ≠ .task t) →
      ∃ y : Plant, exec (.cancel h g) s = .next { s with plant := y.settle s.env }
        ∧ y.task? t = some { k with pending := some .cancelled } ∧ (∀ u, u ≠ t → y.task? u = s.plant.task? u)
        ∧ y.acc a = { s.plant.acc a with ending := true } ∧ y.acc a.other = s.plant.acc a.other
        ∧ y.ltu = s.plant.ltu ∧ y.dru = s.plant.dru ∧ y.mou.queue = s.plant.mou.queue
        ∧ y.out.c = s.plant.out.c ++ [.status h.path (some h.tag) .last .cancelTaken])
    ∧ (∀ q v n, k.serial = some q → s.plant.vol? q = some v →
      ((∃ a, v.loc = .gripper a ∧ ((s.plant.acc a).state = .idle ∨ (s.plant.acc a).state = .stepping
          ∨ (s.plant.acc a).state = .held)) ∨ (∃ i, v.loc = .handoff i) ∨ v.loc = .service n) →
      (∀ i, v.loc = .service i → (s.plant.service i).state = .occupied) →
      (∀ a l, (s.plant.acc a).leg = some l → l.owner ≠ .task t) → s.plant.pru.backlog = [] →
      (∀ u m, u ≠ t → s.plant.task? u = some m → m.waiter = none) →
      (∀ c d, (s.plant.drive c).bound = some t → (s.plant.drive d).bound = some t → c = d) →
      (∀ c, v.cls = .resident → v.home = some c → (s.plant.cell c).occ = .empty → k.cell = none → k.state ≠ .demounting →
        (k.kind = .mount ∨ k.kind = .mountScratch) →
        (capable .A v.loc (.cell c) = true ∨ capable .B v.loc (.cell c) = true) →
        ∃ (y : Plant) (j : Task) (l : Leg) (o : List CFrame), exec (.cancel h g) s = .next { s with plant := y.settle s.env }
          ∧ y.task? t = some j ∧ j.pending = some .cancelled ∧ j.answered = false ∧ j.cell = some c ∧ j.prompt = none
          ∧ (y.cell c).occ = .reserved (some q) t ∧ l ∈ y.mou.queue ∧ l.owner = .task t ∧ l.src = v.loc
          ∧ l.dst = some (.cell c) ∧ l.cls = .demount ∧ (∀ m ∈ y.mou.queue, m.owner = .task t → m = l)
          ∧ (∀ d, (y.drive d).bound ≠ some t)
          ∧ (∀ d, (s.plant.drive d).bound = some t → (s.plant.drive d).state = .reserved →
              (s.plant.drive d).offlinePending = false → (y.drive d).state = .empty)
          ∧ (∀ p ∈ s.plant.pru.table, k.prompt = some p.number → p.owner = .task t →
              y.pru.table = s.plant.pru.table.filter (fun r => r.number ≠ p.number))
          ∧ (∀ u, u ≠ t → y.task? u = s.plant.task? u)
          ∧ y.out.c = s.plant.out.c ++ o ++ [.status h.path (some h.tag) .last .cancelTaken])
      ∧ (v.loc = .service n → v.cls = .visitor → k.requester = none →
        ∃ y : Plant, exec (.cancel h g) s = .next { s with plant := y.settle s.env } ∧ y.task? t = none
          ∧ (y.service n).task = none ∧ (y.service n).content = (s.plant.service n).content
          ∧ (y.pru.namesSlot (.service n) = true ∨ Request.service n ∈ y.tcu.requests)
          ∧ (∀ d, (y.drive d).bound ≠ some t) ∧ (∀ m ∈ y.mou.queue, m.owner ≠ .task t)
          ∧ y.out.c = s.plant.out.c ++ [.status h.path (some g) .last (.ended .cancelled k.tags),
              .status h.path (some h.tag) .last .cancelTaken]))
    ∧ (∀ q v d p, k.serial = some q → s.plant.vol? q = some v → v.loc = .drive d → p ∈ s.plant.pru.table →
      k.prompt = some p.number → p.owner = .task t → s.plant.pru.backlog = [] →
      (∀ a l, (s.plant.acc a).leg = some l → l.owner ≠ .task t) → (s.plant.drive d).bound = some t →
      (∀ c, (s.plant.drive c).bound = some t → c = d) → (s.plant.drive d).state = .threading →
      ∃ (y : Plant) (j : Task), exec (.cancel h g) s = .next { s with plant := y.settle s.env }
        ∧ y.task? t = some j ∧ j.pending = some .cancelled ∧ (∀ u, u ≠ t → y.task? u = s.plant.task? u)
        ∧ (∀ c, c ≠ d → y.drive c = s.plant.drive c)
        ∧ ((s.plant.drive d).unloadSeen = false → j = { k with
              pending := some .cancelled, state := .unloading, wait := none, prompt := none }
            ∧ y.pru.table = s.plant.pru.table.filter (fun r => r.number ≠ p.number)
            ∧ y.drive d = { s.plant.drive d with state := .unloading, mountOpen := false }
            ∧ (∃ o, y.out.m = s.plant.out.m ++ o ++ [.drive d .unload]) ∧ y.ltu = s.plant.ltu ∧ y.mou = s.plant.mou
            ∧ y.out.c = s.plant.out.c ++ [.status h.path (some h.tag) .last .cancelTaken])
        ∧ ((s.plant.drive d).unloadSeen = true → j.state = .demounting
            ∧ (∀ c, v.cls = .resident → v.ringPull = false → k.cell = none → v.home = some c → (s.plant.cell c).occ = .empty →
                y.pru.table = s.plant.pru.table.filter (fun r => r.number ≠ p.number) ∧ j.cell = some c)
            ∧ y.drive d = { s.plant.drive d with state := .unloaded, mountOpen := false }
            ∧ ∀ o, y.out.m = s.plant.out.m ++ o → MFrame.drive d .unload ∉ o))
    ∧ ∀ q v d, k.serial = some q → s.plant.vol? q = some v → v.loc = .drive d → k.prompt = none →
      (∀ a l, (s.plant.acc a).leg = some l → l.owner ≠ .task t) → (s.plant.drive d).bound = some t →
      (∀ c, (s.plant.drive c).bound = some t → c = d) → (s.plant.drive d).state = .threading →
      (s.plant.drive d).unloadSeen = false →
      ∃ y : Plant, exec (.cancel h g) s = .next { s with plant := y.settle s.env }
        ∧ y.task? t = some { k with pending := some .cancelled, state := .unloading, wait := none }
        ∧ y.drive d = { s.plant.drive d with state := .unloading, mountOpen := false }
        ∧ (∀ c, c ≠ d → y.drive c = s.plant.drive c) ∧ (∀ u, u ≠ t → y.task? u = s.plant.task? u)
        ∧ y.ltu = s.plant.ltu ∧ y.mou = s.plant.mou ∧ y.out.m = s.plant.out.m ++ [.drive d .unload]
        ∧ y.out.c = s.plant.out.c ++ [.status h.path (some h.tag) .last .cancelTaken]

/-! ### Admission and the other claimants -/

/-- R46, R49: the admission checks in their order: NO DRIVE, NOT REACHABLE, DRIVE OFFLINE (OFFLINE, FAULTED or
HELD-REEL), DRIVE OCCUPIED; for a MOUNT, TABLE FULL for a serial not held in a full table, VOLUME IN USE for a
volume bound or held by a drive, a gripper or a handoff slot, FENCED and then WORN for a WRITE; for a MOUNT SCRATCH,
NO SCRATCH where neither walk of the pool selects a volume. R23: a scratch selection takes the oldest pool member
that is in a cell, unbound, not FENCED, not WORN and RINGED; where there is none, the oldest such member that is
RINGLESS. -/
def Obligations.AdmissionChecksInOrder : Prop :=
  (∀ (x : Plant) (e : Env) (p : Path) (o : QOrder), ∀ r, r = x.drive o.drive →
    (r.present = false → x.check e p o = .error .noDrive)
    ∧ (r.present = true → r.mask.getLsbD p.val = false → x.check e p o = .error .notReachable)
    ∧ (r.present = true → r.mask.getLsbD p.val = true →
      ((r.state = .offline ∨ r.state = .faulted ∨ r.state = .heldReel) → x.check e p o = .error .driveOffline)
      ∧ (r.state ≠ .offline → r.state ≠ .faulted → r.state ≠ .heldReel →
        (r.bound ≠ none → x.check e p o = .error .driveOccupied)
        ∧ (r.bound = none →
          (∀ q i, o.kind = .mount q i → x.vol? q = none →
            (4096 ≤ x.ltu.volumes.length → x.check e p o = .error .tableFull)
            ∧ (x.ltu.volumes.length < 4096 → i = .write → e.fenced q = true → x.check e p o = .error .fenced)
            ∧ (x.ltu.volumes.length < 4096 → (i = .read ∨ e.fenced q = false) → x.check e p o = .ok q))
          ∧ (∀ q i v, o.kind = .mount q i → x.vol? q = some v →
            ((v.bound ≠ none ∨ (∃ d, v.loc = .drive d) ∨ (∃ a, v.loc = .gripper a) ∨ ∃ h, v.loc = .handoff h) →
              x.check e p o = .error .volumeInUse)
            ∧ (v.bound = none → (∀ d, v.loc ≠ .drive d) → (∀ a, v.loc ≠ .gripper a) → (∀ h, v.loc ≠ .handoff h) →
              (i = .write → e.fenced q = true → x.check e p o = .error .fenced)
              ∧ (i = .write → e.fenced q = false → v.worn = true → x.check e p o = .error .worn)
              ∧ ((i = .read ∨ (e.fenced q = false ∧ v.worn = false)) → x.check e p o = .ok q)))
          ∧ (o.kind = .scratch →
            (x.selectScratch e = none → x.check e p o = .error .noScratch)
            ∧ ∀ q, x.selectScratch e = some q → x.check e p o = .ok q)))))
  ∧ (∀ (x : Plant) (e : Env), ∀ good : Ring → Serial → Prop,
    (good = fun r q => ∃ v c, x.vol? q = some v ∧ v.loc = .cell c ∧ v.bound = none ∧ e.fenced v.serial = false
      ∧ v.worn = false ∧ v.ring = r) →
    (∀ a b q, x.ltu.pool = a ++ q :: b → good .ringed q → (∀ w ∈ a, ¬ good .ringed w) → x.selectScratch e = some q)
    ∧ (∀ a b q, x.ltu.pool = a ++ q :: b → (∀ w ∈ x.ltu.pool, ¬ good .ringed w) → good .ringless q →
        (∀ w ∈ a, ¬ good .ringless w) → x.selectScratch e = some q)
    ∧ ((∀ w ∈ x.ltu.pool, ¬ good .ringed w ∧ ¬ good .ringless w) → x.selectScratch e = none))

/-- R44, R45: an order is taken only in RUNNING, with no RECOVERY request waiting, no refile judgement due (the
model's reading of the order of claimants, log 11), the accounting bound open (records plus open mounts below 128),
a free record and a queued order; otherwise ADMISSION changes nothing. What makes a refile judgement due stands in
RecoveryAndRefileTasksAreMade. The paths are served round robin from the
path after the one last served. R46, R49: an order the checks refuse leaves the head of its queue with the check's
final status and no condition tag. R47, R48: an admitted order leaves its queue and has a record that was free: a
mount task of its path and tag, with its volume, drive, intent and account, the volume and the drive bound to it,
the mount open, an EMPTY drive RESERVED; the status ADMITTED names the task and the volume; a CLEAN-DUE drive makes
the task of an account without an allowance wait. Which free record it is stays open (log 10). -/
def Obligations.AdmissionTakesTheNextOrder : Prop :=
  (∀ s : State, s.free →
    (s.plant.mgu.lib ≠ .running ∨ s.plant.tcu.requests ≠ [] ∨ s.plant.refileDue ≠ none
      ∨ 128 ≤ s.acu.buffer.length + ((List.finRange 32).filter fun d => (s.plant.drive d).mountOpen).length
      ∨ (∀ t, s.plant.task? t ≠ none) ∨ ∀ p : Path, s.oiu.queues.get p = []) →
    exec .admission s = .next s)
  ∧ (∀ s : State, s.mayAdmit = true ↔
    (s.plant.mgu.lib = .running ∧ s.plant.tcu.requests = [] ∧ s.plant.refileDue = none
      ∧ s.acu.buffer.length + ((List.finRange 32).filter fun d => (s.plant.drive d).mountOpen).length < 128))
  ∧ (∀ (s : State) (p : Path), s.nextPath = some p ↔
    (s.oiu.queues.get p ≠ [] ∧ ∃ k : Nat, 1 ≤ k ∧ k ≤ 4 ∧ p.val = (s.oiu.lastServed.val + k) % 4
      ∧ ∀ j : Nat, 1 ≤ j → j < k → ∀ q : Path, q.val = (s.oiu.lastServed.val + j) % 4 → s.oiu.queues.get q = []))
  ∧ (∀ (s : State) (p : Path) (o : QOrder) (rest : List QOrder) (f : Final) (t : TaskNo), s.free →
    s.mayAdmit = true → s.nextPath = some p → s.oiu.queues.get p = o :: rest → s.plant.task? t = none →
    s.plant.check s.env p o = .error f →
    ∃ (v : Vector (List QOrder) 4) (z : State),
      exec .admission s = .next { z with plant := z.plant.settle z.env }
      ∧ z = State.judgePace p (({ s with
          oiu := { s.oiu with queues := v, lastServed := p },
          plant := { s.plant with tcu := { s.plant.tcu with choices := s.plant.tcu.choices + 1 } } } : State).withC
            (.status p (some o.tag) .last (.ended f 0)))
      ∧ v.get p = rest ∧ ∀ q, q ≠ p → v.get q = s.oiu.queues.get q)
  ∧ (∀ (s : State) (p : Path) (o : QOrder) (rest : List QOrder) (q : Serial) (r : TaskNo), s.free →
    s.mayAdmit = true → s.nextPath = some p → s.oiu.queues.get p = o :: rest → s.plant.task? r = none →
    s.plant.check s.env p o = .ok q →
    ∃ (t : TaskNo) (z : State) (k : Task) (v : Volume) (l : List CFrame),
      exec .admission s = .next { z with plant := z.plant.settle z.env }
      ∧ z.oiu.queues.get p = rest ∧ (∀ u, u ≠ p → z.oiu.queues.get u = s.oiu.queues.get u) ∧ z.oiu.lastServed = p
      ∧ z.env = s.env ∧ z.acu = s.acu ∧ s.plant.task? t = none ∧ z.plant.task? t = some k
      ∧ k.origin = .path p o.tag ∧ k.serial = some q ∧ k.drive = some o.drive ∧ k.account = o.account
      ∧ k.answered = false ∧ k.admitted = s.env.tick
      ∧ (∀ i, o.kind = .mount q i → k.kind = .mount ∧ k.intent = i)
      ∧ (o.kind = .scratch → k.kind = .mountScratch ∧ k.intent = .write)
      ∧ z.plant.vol? q = some v ∧ v.bound = some t ∧ (s.plant.vol? q = none → v.cls = .visitor ∧ v.loc = .outside)
      ∧ (z.plant.drive o.drive).bound = some t ∧ (z.plant.drive o.drive).mountOpen = true
      ∧ ((s.plant.drive o.drive).state = .empty → (z.plant.drive o.drive).state = .reserved)
      ∧ ((s.plant.drive o.drive).state ≠ .empty → (z.plant.drive o.drive).state = (s.plant.drive o.drive).state)
      ∧ z.plant.out.c = s.plant.out.c ++ .status p (some o.tag) .interim (.admitted t q) :: l
      ∧ ((s.acu.accounts.get o.account.toFin).allowance = 0
          → (s.plant.drive o.drive).state = .cleanDue → k.state = .waiting ∧ k.wait = some .clean))

/-- R20, R74, R164: ENTER with the number of an EMPTY entry slot and a free record makes an ENTER task of origin
OPERATOR for the reel in that slot, which is OCCUPIED by UNKNOWN REEL and held for the task; a slot that is not EMPTY, a
number that is no slot, and a table with no free record beep. R75, R216, R217: EJECT's checks in their order, a path
outside the mask NOT PERMITTED, then STARTING and LOADING NOT READY, and those of R75; taken, a free record
holds an EJECT task of origin MANAGEMENT for the volume, which is bound to it, and ACCEPTED carries its number. Which
free record it is stays open (log 10); that ACCEPTED comes before every other frame of the action is the model's choice
(log 51). -/
def Obligations.EnterAndEjectMakeTasks : Prop :=
  (∀ (k : Keyed) (s : State), s.keys →
    ((7 < k.number.toNat ∨ (∀ t, s.plant.task? t ≠ none)
        ∨ ∃ n : Fin 8, k.number.toNat = n.val ∧ (s.plant.entry n).state ≠ .empty) →
      exec (.enterKey k) s = .next (s.withM (.beep k.console)))
    ∧ ∀ (n : Fin 8) (r : TaskNo), k.number.toNat = n.val → (s.plant.entry n).state = .empty → s.plant.task? r = none →
      ∃ (t : TaskNo) (y : Plant) (m : Task), exec (.enterKey k) s = .next { s with plant := y.settle s.env }
        ∧ s.plant.task? t = none ∧ y.task? t = some m ∧ m.kind = .enter ∧ m.origin = .operator ∧ m.serial = none
        ∧ m.source = some (.entry n) ∧ m.admitted = s.env.tick
        ∧ y.entry n = { state := .occupied, content := some .unknown, task := some t }
        ∧ (∀ i, i ≠ n → y.entry i = s.plant.entry i) ∧ (∀ u, u ≠ t → y.task? u = s.plant.task? u)
        ∧ y.ltu.volumes = s.plant.ltu.volumes ∧ y.dru = s.plant.dru)
  ∧ (∀ (h : Hdr) (b : List Byte) (s : State), s.free → s.env.set.mgmtMask.getLsbD h.path.val = false →
    exec (.eject h b) s = .next (s.replied h .notPermitted .nothing))
  ∧ (∀ (h : Hdr) (b : List Byte) (s : State), s.free → s.env.set.mgmtMask.getLsbD h.path.val = true →
    ((s.plant.mgu.lib = .starting ∨ s.plant.mgu.lib = .loading) →
      exec (.eject h b) s = .next (s.replied h .notReady .nothing))
    ∧ (s.plant.mgu.lib = .running ∨ s.plant.mgu.lib = .restarting →
      ((h.sized = false ∨ serialOf b = none) → exec (.eject h b) s = .next (s.replied h .badValue .nothing))
      ∧ ∀ q, h.sized = true → serialOf b = some q →
        (s.plant.vol? q = none → exec (.eject h b) s = .next (s.replied h .notFound .nothing))
        ∧ ∀ v, s.plant.vol? q = some v →
          (v.bound ≠ none → exec (.eject h b) s = .next (s.replied h .bound .nothing))
          ∧ (v.bound = none → (∀ c, v.loc ≠ .cell c) → exec (.eject h b) s = .next (s.replied h .location .nothing))
          ∧ ((∀ t, s.plant.task? t ≠ none) → v.bound = none → ∀ c, v.loc = .cell c →
              exec (.eject h b) s = .next (s.replied h .busy .nothing))
          ∧ ∀ c r, v.bound = none → v.loc = .cell c → s.plant.task? r = none →
            ∃ (t : TaskNo) (y : Plant) (w : Volume) (k : Task) (l : List CFrame),
              exec (.eject h b) s = .next { s with plant := y.settle s.env }
              ∧ s.plant.task? t = none ∧ y.task? t = some k ∧ k.kind = .eject ∧ k.origin = .management
              ∧ k.serial = some q ∧ y.vol? q = some w ∧ w.bound = some t ∧ w.loc = .cell c
              ∧ (∀ u, u ≠ t → y.task? u = s.plant.task? u)
              ∧ y.out.c = s.plant.out.c ++ CFrame.reply h.path h.tag .accepted (.taskNumber t) :: l))

/-- R44, R77: the oldest RECOVERY request, when its reel still stands where the request names it, takes a free record
for a RECOVERY task of origin INTERNAL, or AUDIT for a visitor found in a cell, and leaves the waiting ones, which stay:
for a handoff slot, a drive or a gripper whose reel is not known, the task has that place as its source, to have its
label read there or, from the gripper, to go to a FOREIGN prompt; for a service slot with an unknown reel, it holds the
slot and waits on a FOREIGN prompt; a known unbound volume in a gripper, a service slot or a cell is bound to it, and a
volume in a gripper bound to a task X is to be handed to X. With no request waiting or no record free the command changes
nothing. A reel that a live task holds in a gripper (a leg from it, or a task that goes on from it), or on a drive (a task
that is to read it there), is no such reel. That a
request whose reel stands there no more is dropped without a task (log 12), and how a reel in a gripper or a slot is taken
up (log 42), are the model's readings. R76: where a refile judgement is due (a MISFILED volume with
the pending mark, in a cell, unbound, its home EMPTY, and at least 8 records free), a REFILE task is made for it: the
volume bound, its mark cleared, its home reserved for it; that this waits until no RECOVERY request does is the model's
reading of R44's order (log 11). The judgement due is that of the first such volume in serial order, and none is due where no
volume is such. -/
def Obligations.RecoveryAndRefileTasksAreMade : Prop :=
  (∀ s : State, s.free →
    ((s.plant.tcu.requests = [] ∨ ∀ t, s.plant.task? t ≠ none) → exec .recoveryTaskCreation s = .next s)
    ∧ ∀ (r : Request) (rest : List Request) (u : TaskNo), s.plant.tcu.requests = r :: rest → r ∉ rest →
      s.plant.task? u = none →
      (s.plant.stands r = false → exec .recoveryTaskCreation s
        = .next { s with plant := { s.plant with tcu := { s.plant.tcu with requests := rest } } })
      ∧ ∀ made : TaskNo → Plant → Task → Prop,
        (made = fun t y k => exec .recoveryTaskCreation s = .next { s with plant := y.settle s.env }
          ∧ s.plant.task? t = none ∧ y.task? t = some k ∧ k.kind = .recovery ∧ k.admitted = s.env.tick
          ∧ ((∃ q, r = .cell q) → k.origin = .audit) ∧ ((∀ q, r ≠ .cell q) → k.origin = .internal)
          ∧ (∀ v, v ≠ t → y.task? v = s.plant.task? v) ∧ y.tcu.requests = rest ∧ y.dru = s.plant.dru) →
        ∀ spare : Acc → Prop,
        (spare = fun a => (∀ l ∈ s.plant.mou.queue, l.src ≠ .gripper a) ∧ (s.plant.acc a).leg = none
          ∧ ∀ v k, s.plant.task? v = some k → k.holding = some a → s.plant.reelAt k ≠ some (.gripper a)) →
        (∀ h, r = .handoff h → (s.plant.handoff h).state = .occupied → (s.plant.handoff h).task = none →
          ∃ t y k, made t y k ∧ k.serial = none ∧ k.source = some (.handoff h)
            ∧ y.handoff h = { s.plant.handoff h with task := some t } ∧ y.ltu.volumes = s.plant.ltu.volumes)
        ∧ (∀ d, r = .drive d →
          (∀ v k, s.plant.task? v = some k → k.serial = none → k.source = some (.drive d) → s.plant.stands r = false)
          ∧ ((s.plant.drive d).state = .heldReel → (s.plant.drive d).unloadSeen = true →
            (∀ v k, s.plant.task? v = some k → k.serial = none → k.source ≠ some (.drive d)) →
            ∃ t y k, made t y k ∧ k.serial = none ∧ k.source = some (.drive d) ∧ k.work = some .identify
              ∧ y.ltu.volumes = s.plant.ltu.volumes))
        ∧ (∀ a, r = .gripper a → (∀ l ∈ s.plant.mou.queue, l.src = .gripper a → s.plant.stands r = false)
          ∧ (∀ l, (s.plant.acc a).leg = some l → l.picked = true → ((∃ v, l.owner = .task v) ∨ l.work = .carry) →
              s.plant.stands r = false)
          ∧ ∀ v k, s.plant.task? v = some k → k.holding = some a → s.plant.reelAt k = some (.gripper a) →
              s.plant.stands r = false)
        ∧ (∀ a, r = .gripper a → spare a → (s.plant.acc a).gripper = .unknownReel →
          ∃ t y k, made t y k ∧ k.serial = none ∧ k.source = some (.gripper a) ∧ k.work = some .foreign
            ∧ k.readSerial = (s.plant.acc a).read ∧ y.ltu.volumes = s.plant.ltu.volumes)
        ∧ (∀ a q v, r = .gripper a → spare a → (s.plant.acc a).gripper = .known q → s.plant.vol? q = some v →
          v.loc = .gripper a →
          (v.bound = none → ∃ t y k w, made t y k ∧ k.serial = some q ∧ y.vol? q = some w
            ∧ w = { v with bound := some t })
          ∧ ∀ x, v.bound = some x → ∃ t y k, made t y k ∧ k.serial = none ∧ k.source = some (.gripper a)
            ∧ k.work = some (.handover x) ∧ y.vol? q = some v)
        ∧ (∀ n, r = .service n → (s.plant.service n).state = .occupied → (s.plant.service n).task = none →
          ((s.plant.service n).content = some .unknown → s.plant.pru.table.length < 32 → s.plant.pru.later = none →
            ∃ t y k p, made t y k ∧ k.serial = none ∧ k.source = some (.service n) ∧ k.state = .opwait
              ∧ k.service = some n ∧ y.service n = { s.plant.service n with task := some t }
              ∧ p ∈ y.pru.table ∧ k.prompt = some p.number ∧ p.kind = .foreign ∧ p.owner = .task t
              ∧ p.params.slot = some (.service n) ∧ y.ltu.volumes = s.plant.ltu.volumes)
          ∧ ∀ q v, (s.plant.service n).content = some (.known q) → s.plant.vol? q = some v → v.loc = .service n →
            v.bound = none →
            ∃ t y k w, made t y k ∧ k.serial = some q ∧ k.service = some n ∧ (y.service n).state = .occupied
              ∧ (y.service n).content = some (.known q) ∧ (y.service n).task = some t
              ∧ y.vol? q = some w ∧ w = { v with bound := some t })
        ∧ ∀ q v c, r = .cell q → s.plant.vol? q = some v → v.cls = .visitor → v.loc = .cell c → v.bound = none →
          ∃ t y k w, made t y k ∧ k.serial = some q ∧ k.work = some .remove ∧ y.vol? q = some w
            ∧ w = { v with bound := some t })
  ∧ (∀ (x : Plant) (v : Volume) (due : Volume → Prop), x.ltu.volumes.Pairwise (fun a b => a.serial < b.serial) →
    (due = fun w => w ∈ x.ltu.volumes ∧ w.refilePending = true ∧ w.misfiled = true ∧ (∃ c, w.loc = .cell c) ∧ w.bound = none
      ∧ (∃ c, w.home = some c ∧ (x.cell c).occ = .empty)
      ∧ 8 ≤ ((List.finRange 48).filter fun t => x.task? t = none).length) →
    (x.refileDue = some v ↔ (due v ∧ ∀ w, w.serial < v.serial → ¬ due w)))
  ∧ (∀ s : State, s.free →
    ((s.plant.refileDue = none ∨ s.plant.tcu.requests ≠ []) → exec .refileTaskCreation s = .next s)
    ∧ ∀ v c, s.plant.tcu.requests = [] → s.plant.refileDue = some v → s.plant.vol? v.serial = some v → v.home = some c →
      (∀ w ∈ s.plant.ltu.volumes, w.loc ≠ .cell c) →
      ∃ (t : TaskNo) (y : Plant) (k : Task) (w : Volume),
        exec .refileTaskCreation s = .next { s with plant := y.settle s.env }
        ∧ s.plant.task? t = none ∧ y.task? t = some k ∧ k.kind = .refile ∧ k.serial = some v.serial ∧ k.cell = some c
        ∧ y.vol? v.serial = some w ∧ w = { v with bound := some t, refilePending := false }
        ∧ (y.cell c).occ = .reserved (some v.serial) t ∧ (∀ q, q ≠ v.serial → y.vol? q = s.plant.vol? q)
        ∧ (∀ u, u ≠ t → y.task? u = s.plant.task? u) ∧ y.tcu.requests = s.plant.tcu.requests
        ∧ y.dru = s.plant.dru ∧ y.out.c = s.plant.out.c)

/-! ### Drives -/

/-- R117: LOAD DRIVE refuses a drive above 31, a mask with a path above 3 and a field with no value BAD VALUE, and a
drive that is not OFFLINE, EMPTY or ABSENT DRIVE BUSY; otherwise it sets the mask and the interval, clears the footage
when asked, makes a drive ABSENT or an ABSENT drive EMPTY as present says, touches no other drive, and replies ACCEPTED.
The present byte's codes are read by the position rule of R233 (log 5), and that a clear-footage byte above 1 is BAD
VALUE is the model's reading (log 52). -/
def Obligations.LoadDriveSetsOneDrive : Prop :=
  ∀ (h : Hdr) (n p m c : Byte) (i : BitVec 32) (s : State), s.manages h →
    ((31 < n.toNat ∨ 15 < m.toNat ∨ 1 < p.toNat ∨ 1 < c.toNat) →
      exec (.loadDrive h n p m i c) s = .next (s.replied h .badValue .nothing))
    ∧ ∀ d : DriveNo, n.toNat = d.val → m.toNat ≤ 15 → p.toNat ≤ 1 → c.toNat ≤ 1 →
      ((s.plant.drive d).state ≠ .offline → (s.plant.drive d).state ≠ .empty → (s.plant.drive d).state ≠ .absent →
        exec (.loadDrive h n p m i c) s = .next (s.replied h .driveBusy .nothing))
      ∧ (((s.plant.drive d).state = .offline ∨ (s.plant.drive d).state = .empty ∨ (s.plant.drive d).state = .absent) →
        ∃ v : Vector Drive 32,
          exec (.loadDrive h n p m i c) s
            = .next (({ s with plant := { s.plant with dru := { drives := v } } } : State).replied h .accepted .nothing)
          ∧ (∀ e, e ≠ d → v.get e = s.plant.drive e)
          ∧ (v.get d).mask.toNat = m.toNat ∧ (v.get d).interval = i.toNat
          ∧ (v.get d).footage = (if c = 1 then 0 else (s.plant.drive d).footage)
          ∧ (v.get d).stray = (s.plant.drive d).stray
          ∧ (p = 1 → (v.get d).present = false ∧ (v.get d).state = .absent ∧ (v.get d).offlinePending = false
              ∧ (v.get d).unloadSeen = false ∧ (v.get d).rethreadDone = false)
          ∧ (p = 0 → (v.get d).present = true ∧ (v.get d).state
              = (if (s.plant.drive d).state = .absent then .empty else (s.plant.drive d).state)))

/-- R121, R52: READY at a THREADING drive whose bound task has no pending final status makes the drive MOUNTED with
its rethread-done and unload seen cleared, and the task MOUNTED at this tick and minute; an unanswered order is
answered MOUNTED with its volume, drive and condition tags; a scratch volume leaves the pool; a prompt the task waits on is
closed; a WATCH volume sets WATCH-SEEN and a WATCH prompt owned by the drive names it. R122: at a THREADING
drive whose rethread-done is clear, a THREAD-FAIL while the task waits on no operator sends RETHREAD, sets
rethread-done and gives the task the tag RETHREADED. With rethread-done set, and at an UNLOADED, which sets unload seen and
adds its footage with no close made, it counts one failure of the volume (saturating at 255) and the task goes to OPWAIT on a
THREAD-FAIL prompt, the drive staying THREADING; a task in OPWAIT already keeps the prompt it has. R143, R144: a volume whose failures
have come to a failure limit other than 0 is WORN, and a RETIRE prompt owned by the drive names it where it was not. A
FAULTED drive takes these reports as DrivesGoOfflineOnlineAndFaulted says. -/
def Obligations.ReadyMountsAndThreadFailRetries : Prop :=
  (∀ (d : DriveNo) (t : TaskNo) (k : Task) (q : Serial) (s : State), s.reports →
    (s.plant.drive d).state = .threading → (s.plant.drive d).bound = some t → s.plant.task? t = some k →
    k.pending = none → k.serial = some q →
    ∃ (y : Plant) (m : Task), exec (.ready d) s = .next { s with plant := y.settle s.env }
      ∧ y.drive d = { s.plant.drive d with state := .mounted, rethreadDone := false, unloadSeen := false }
      ∧ (∀ e, e ≠ d → y.drive e = s.plant.drive e)
      ∧ y.task? t = some m ∧ m.state = .mounted ∧ m.mountedTick = some s.env.tick
      ∧ m.mountedMinute = some s.env.minute ∧ m.tags = k.tags ∧ m.prompt = none ∧ (∀ u, u ≠ t → y.task? u = s.plant.task? u)
      ∧ (∀ p g, k.origin = .path p g → k.answered = false →
          m.answered = true ∧ CFrame.status p (some g) .last (.mounted q d k.tags) ∈ y.out.c)
      ∧ (k.kind = .mountScratch → y.ltu.pool = s.plant.ltu.pool.filter (fun r => r ≠ q))
      ∧ (k.kind ≠ .mountScratch → y.ltu = s.plant.ltu)
      ∧ (∀ v, s.plant.vol? q = some v →
        (v.watch = true → (y.mgu.flags.get EventFlag.watchSeen.index).isSet = true
          ∧ (s.plant.pru.table.length < 32 → s.plant.pru.backlog = [] → s.plant.pru.later = none →
            ∃ p ∈ y.pru.table, p.kind = .watch ∧ p.owner = .drive d ∧ p.params = { vol := some q, drive := some d }))
        ∧ (v.watch = false → y.mgu = s.plant.mgu
          ∧ (k.prompt = none → y.pru = s.plant.pru)
          ∧ ∀ p ∈ s.plant.pru.table, k.prompt = some p.number → p.owner = .task t → s.plant.pru.backlog = [] →
            y.pru.table = s.plant.pru.table.filter (fun r => r.number ≠ p.number) ∧ y.pru.backlog = [])))
  ∧ (∀ (d : DriveNo) (t : TaskNo) (k : Task) (q : Serial) (v : Volume) (s : State), s.reports →
    (s.plant.drive d).state = .threading → (s.plant.drive d).bound = some t → s.plant.task? t = some k →
    k.state = .threading → k.serial = some q → s.plant.vol? q = some v →
    ((s.plant.drive d).rethreadDone = false →
      ∃ (y : Plant) (m : Task), exec (.threadFail d) s = .next { s with plant := y.settle s.env }
        ∧ y.out = { s.plant.out with m := s.plant.out.m ++ [.drive d .rethread] }
        ∧ y.drive d = { s.plant.drive d with rethreadDone := true } ∧ (∀ e, e ≠ d → y.drive e = s.plant.drive e)
        ∧ y.task? t = some m ∧ m = { k with tags := addTag .rethreaded k.tags } ∧ y.ltu = s.plant.ltu
        ∧ y.pru = s.plant.pru ∧ y.mou = s.plant.mou))
  ∧ (∀ (d : DriveNo) (t : TaskNo) (k : Task) (q : Serial) (v : Volume) (c : Instr) (r : Drive) (s : State), s.reports →
    (s.plant.drive d).state = .threading → (s.plant.drive d).bound = some t → s.plant.task? t = some k →
    (k.state = .threading ∨ k.state = .opwait) → k.serial = some q → s.plant.vol? q = some v →
    ((c = .threadFail d ∧ ((s.plant.drive d).rethreadDone = true ∨ k.state = .opwait) ∧ r = s.plant.drive d)
      ∨ ∃ f br bw, c = .unloaded d f br bw ∧ r = { s.plant.drive d with
          unloadSeen := true, footage := min 4294967295 ((s.plant.drive d).footage + f.toNat) }) →
    s.plant.pru.table.length < 31 → s.plant.pru.backlog = [] → s.plant.pru.later = none →
    ∃ (y : Plant) (m : Task) (w : Volume), exec c s = .next { s with plant := y.settle s.env }
      ∧ y.drive d = r ∧ (∀ e, e ≠ d → y.drive e = s.plant.drive e) ∧ y.vol? q = some w
      ∧ w = { v with fails := min 255 (v.fails + 1), worn := w.worn }
      ∧ (w.worn = true ↔ (v.worn = true ∨ (s.env.set.failLimit ≠ 0 ∧ s.env.set.failLimit ≤ w.fails)))
      ∧ (v.worn = false → w.worn = true →
          ∃ p ∈ y.pru.table, p.kind = .retire ∧ p.owner = .drive d ∧ p.params = { vol := some q, drive := some d })
      ∧ (w.worn = v.worn → ∀ p ∈ y.pru.table, p.kind = .retire → p ∈ s.plant.pru.table)
      ∧ y.task? t = some m ∧ (∀ u, u ≠ t → y.task? u = s.plant.task? u) ∧ y.mou = s.plant.mou ∧ y.mgu = s.plant.mgu
      ∧ (k.state = .opwait → m = k ∧ ∀ p ∈ y.pru.table, p.kind = .threadFail → p ∈ s.plant.pru.table)
      ∧ (k.state = .threading → m.state = .opwait ∧ ∃ p ∈ y.pru.table, m.prompt = some p.number ∧ p.kind = .threadFail
          ∧ p.owner = .task t ∧ p.params = { vol := some q, drive := some d }))

/-- R71, R124: an UNLOADED from a MOUNTED or UNLOADING drive whose task has no pending final status, its mount open, makes
the drive UNLOADED with unload seen set and its mount open no more, adds the footage to its footage since cleaning, and
closes the mount: one usage record more, of the task's account, volume and drive and of the report's counts. R183, R143,
R144: the close counts a mount on the volume and adds the footage to it, both saturating; a volume whose mount count has
come to a mount limit other than 0 is WORN, and a RETIRE prompt names it and the drive where it was not. R187: the record that brings the buffer to the trigger level
sets ACCT-READY, and no other does. With a pending
final status nothing is closed; the footage is added all the same. The task demounts. R130: an UNLOADED from a HELD-REEL
drive whose unload has not been seen sets unload seen, adds the footage, closes nothing and has a RECOVERY task requested
for the drive (once). At a THREADING drive see ReadyMountsAndThreadFailRetries, at a FAULTED one
DrivesGoOfflineOnlineAndFaulted. -/
def Obligations.UnloadedClosesOrRequestsRecovery : Prop :=
  (∀ (d : DriveNo) (f : BitVec 16) (br bw : BitVec 24) (t : TaskNo) (k : Task) (q : Serial) (s : State), s.reports →
    ((s.plant.drive d).state = .mounted ∨ (s.plant.drive d).state = .unloading) → (s.plant.drive d).bound = some t →
    s.plant.task? t = some k → k.serial = some q →
    (k.pending = none → (s.plant.drive d).mountOpen = true →
      ∃ (y : Plant) (a : Acu) (u : Usage) (m : Task),
        exec (.unloaded d f br bw) s = .next { s with acu := a, plant := y.settle s.env }
        ∧ a.buffer = s.acu.buffer ++ [u] ∧ u.seq = s.acu.nextSeq ∧ a.nextSeq = (s.acu.nextSeq + 1) % 65536
        ∧ u.account = k.account ∧ u.volume = q ∧ u.drive = d ∧ u.intent = k.intent ∧ u.footage = f.toNat
        ∧ u.blocksRead = br.toNat ∧ u.blocksWritten = bw.toNat ∧ a.quietEnd = some (s.env.tick + ticks s.env.set.quiet)
        ∧ (y.drive d).state = .unloaded ∧ (y.drive d).unloadSeen = true ∧ (y.drive d).mountOpen = false
        ∧ (y.drive d).footage = min 4294967295 ((s.plant.drive d).footage + f.toNat)
        ∧ y.task? t = some m ∧ m.state = .demounting ∧ (∀ e, e ≠ d → y.drive e = s.plant.drive e)
        ∧ (s.acu.buffer.length + 1 = s.env.set.trigger → (y.mgu.flags.get EventFlag.acctReady.index).isSet = true)
        ∧ (s.acu.buffer.length + 1 ≠ s.env.set.trigger →
            y.mgu.flags.get EventFlag.acctReady.index = s.plant.mgu.flags.get EventFlag.acctReady.index)
        ∧ ∀ v, s.plant.vol? q = some v → ∃ w, y.vol? q = some w
          ∧ w.mounts = min 65535 (v.mounts + 1) ∧ w.footage = min 4294967295 (v.footage + f.toNat)
          ∧ (w.worn = true ↔ (v.worn = true ∨ (s.env.set.mountLimit ≠ 0 ∧ s.env.set.mountLimit ≤ w.mounts)))
          ∧ w.fails = v.fails ∧ w.ring = v.ring ∧ w.scratch = v.scratch ∧ w.home = v.home ∧ w.cls = v.cls
          ∧ w.bound = v.bound
          ∧ (v.worn = false → w.worn = true → s.plant.pru.table.length < 32 → s.plant.pru.later = none →
              ∃ p ∈ y.pru.table, p.kind = .retire ∧ p.owner = .drive d ∧ p.params.vol = some q ∧ p.params.drive = some d))
    ∧ (k.pending ≠ none →
      ∃ (y : Plant) (m : Task), exec (.unloaded d f br bw) s = .next { s with plant := y.settle s.env }
        ∧ (y.drive d).state = .unloaded ∧ (y.drive d).unloadSeen = true
        ∧ (y.drive d).footage = min 4294967295 ((s.plant.drive d).footage + f.toNat)
        ∧ y.task? t = some m ∧ m.state = .demounting ∧ (∀ e, e ≠ d → y.drive e = s.plant.drive e)))
  ∧ (∀ (d : DriveNo) (f : BitVec 16) (br bw : BitVec 24) (s : State), s.reports → (s.plant.drive d).state = .heldReel →
    (s.plant.drive d).unloadSeen = false →
    ∃ v l, exec (.unloaded d f br bw) s
        = .next (State.settled { s with plant := { s.plant with dru := { drives := v }, tcu := { s.plant.tcu with requests := l } } })
      ∧ v.get d = { s.plant.drive d with unloadSeen := true, footage := min 4294967295 ((s.plant.drive d).footage + f.toNat) }
      ∧ (∀ e, e ≠ d → v.get e = s.plant.drive e)
      ∧ l = (if Request.drive d ∈ s.plant.tcu.requests then s.plant.tcu.requests else s.plant.tcu.requests ++ [.drive d]))

/-- R127, R128: OFFLINE takes an EMPTY drive OFFLINE, and a CLEAN-DUE one that no task is bound to, whose CLEAN prompt is
withdrawn from the table or the backlog, its footage kept; it sets offline-pending on a drive in use; ONLINE clears
offline-pending there, brings an OFFLINE drive for which no cleaning is due to EMPTY and one for which it is due to
CLEAN-DUE with a CLEAN prompt (R125), and a FAULTED drive back to its pre-fault state (OFFLINE where that is EMPTY with
offline-pending set, as R128 says; that a drive emptied while FAULTED keeps the flag until then is the model's, log 31); where that is RESERVED and its
task waits for the drive, the task's leg is queued. READY, THREAD-FAIL and UNLOADED at a FAULTED drive are taken as that ONLINE
followed by the report in one action: as if the drive had stood in its pre-fault state, or, with it RESERVED, after the leg has
been queued, where the report is stray. CHECK makes a drive FAULTED over its present state, keeping the rest of its
entry. -/
def Obligations.DrivesGoOfflineOnlineAndFaulted : Prop :=
  ∀ (d : DriveNo) (s : State), s.reports → ∀ r, r = s.plant.drive d →
    ∃ put : Drive → State,
      (∀ q, (put q).plant.drive d = q ∧ (∀ e, e ≠ d → (put q).plant.drive e = s.plant.drive e)
        ∧ put q = { s with plant := { s.plant with dru := (put q).plant.dru } })
      ∧ (r.state = .empty → exec (.offline d) s = .next (put { r with state := .offline }))
      ∧ ((r.state = .reserved ∨ r.state = .threading ∨ r.state = .mounted ∨ r.state = .unloading ∨ r.state = .unloaded
          ∨ r.state = .heldReel ∨ r.state = .faulted ∨ (r.state = .cleanDue ∧ r.bound ≠ none)) →
          exec (.offline d) s = .next (put { r with offlinePending := true }))
      ∧ ((r.state = .empty ∨ r.state = .cleanDue ∨ r.state = .reserved ∨ r.state = .threading ∨ r.state = .mounted
          ∨ r.state = .unloading ∨ r.state = .unloaded ∨ r.state = .heldReel) →
          exec (.online d) s = .next (put { r with offlinePending := false }).settled)
      ∧ (r.state = .offline → (r.interval = 0 ∨ r.footage < r.interval) →
          exec (.online d) s = .next (put { r with state := .empty }).settled)
      ∧ (r.state = .cleanDue → r.bound = none →
          (s.plant.pru.numberOf .clean (.drive d) = none → exec (.offline d) s = .next (put { r with state := .offline }))
          ∧ ∀ n, s.plant.pru.numberOf .clean (.drive d) = some n →
            ∃ y : Plant, exec (.offline d) s = .next { s with plant := y } ∧ y.drive d = { r with state := .offline }
              ∧ (∀ e, e ≠ d → y.drive e = s.plant.drive e)
              ∧ (s.plant.pru.backlog = [] → y.pru.table = s.plant.pru.table.filter (fun p => p.number ≠ n)
                  ∧ y.pru.backlog = [])
              ∧ (32 ≤ s.plant.pru.table.length → (∀ p ∈ s.plant.pru.table, p.number ≠ n) →
                  y.pru.table = s.plant.pru.table ∧ y.pru.backlog = s.plant.pru.backlog.filter (fun q => q.number ≠ n))
              ∧ y.ltu = s.plant.ltu ∧ y.tcu = s.plant.tcu ∧ y.mou = s.plant.mou ∧ y.adu = s.plant.adu
              ∧ y.out.c = s.plant.out.c)
      ∧ (r.state = .offline → r.interval ≠ 0 → r.interval ≤ r.footage → s.plant.pru.table.length < 32 →
          s.plant.pru.later = none →
          ∃ (y : Plant) (p : Prompt), exec (.online d) s = .next { s with plant := y.settle s.env }
            ∧ y.drive d = { r with state := .cleanDue } ∧ (∀ e, e ≠ d → y.drive e = s.plant.drive e)
            ∧ p ∈ y.pru.table ∧ p.kind = .clean ∧ p.owner = .drive d ∧ p.params = { drive := some d }
            ∧ (∀ q ∈ s.plant.pru.table, q ∈ y.pru.table)
            ∧ y.ltu = s.plant.ltu ∧ y.tcu = s.plant.tcu ∧ y.mou = s.plant.mou ∧ y.adu = s.plant.adu)
      ∧ (∀ p, r.state = .faulted → r.preFault = some p → (r.bound = none ∨ p ≠ .reserved) →
          exec (.online d) s = .next (put (if p = .empty ∧ r.offlinePending = true
            then { r with state := .offline, preFault := none, offlinePending := false }
            else { r with state := p, preFault := none })).settled)
      ∧ (∀ p, r.state = .faulted → r.preFault = some p → (r.bound = none ∨ p ≠ .reserved) → ∀ c : Instr,
          (c = .ready d ∨ c = .threadFail d ∨ ∃ f br bw, c = .unloaded d f br bw) →
          exec c s = exec c (put (if p = .empty ∧ r.offlinePending = true
            then { r with state := .offline, preFault := none, offlinePending := false }
            else { r with state := p, preFault := none })))
      ∧ (∀ (t : TaskNo) (k : Task) (q : Serial) (v : Volume) (i : CellNo), r.state = .faulted →
          r.preFault = some .reserved → r.bound = some t → s.plant.task? t = some k → k.state = .waiting →
          k.wait = some .driveFree → (k.kind = .mount ∨ k.kind = .mountScratch) → k.intent = .read → k.serial = some q →
          s.plant.vol? q = some v → v.loc = .cell i → k.drive = some d →
          (capable .A (.cell i) (.drive d) = true ∨ capable .B (.cell i) (.drive d) = true) → ∀ (c : Instr) (n : Nat),
          ((c = .online d ∧ n = r.stray) ∨ ((c = .ready d ∨ c = .threadFail d ∨ ∃ f br bw, c = .unloaded d f br bw)
            ∧ n = min 65535 (r.stray + 1))) →
          ∃ (y : Plant) (m : Task) (l : Leg), exec c s = .next { s with plant := y.settle s.env }
            ∧ y.drive d = { r with state := .reserved, preFault := none, stray := n }
            ∧ (∀ e, e ≠ d → y.drive e = s.plant.drive e) ∧ y.task? t = some m ∧ (m.state = .moving ∨ m.wait = some .zone)
            ∧ (∀ u, u ≠ t → y.task? u = s.plant.task? u) ∧ l ∈ y.mou.queue ∧ l.owner = .task t ∧ l.src = .cell i
            ∧ l.dst = some (.drive d) ∧ l.cls = .mount ∧ l.picked = false ∧ y.ltu = s.plant.ltu)
      ∧ (r.state ≠ .faulted → r.state ≠ .offline → r.state ≠ .absent →
          exec (.check d) s = .next (put { r with state := .faulted, preFault := some r.state }))

/-! ### Accessors -/

/-- R85: a report whose tag is not that of the step in flight, whose kind does not fit it (R86), or that finds no
step in flight, adds one to the accessor's late count, saturating at 65,535, and changes nothing else; the step in
flight stays. R129, with R121, R122, R124, R127, R128: a drive report that the drive's state does not take adds one
to its stray count, saturating at 65,535, and nothing else. -/
def Obligations.ReportsNobodyWaitsForAreCounted : Prop :=
  (∀ (a : Acc) (g bay : Byte) (lb : Label) (rs : List Reading) (r : Reading) (c : Instr) (s : State), s.free →
    (∀ f, (s.plant.acc a).step = some f → f.tag ≠ g ∨ reportFits c f.kind = false) →
    (c = .arrived a g ∨ c = .picked a g lb ∨ c = .gripMiss a g ∨ c = .placed a g ∨ c = .placeBlocked a g
      ∨ c = .readDone a g rs ∨ c = .recovered a g bay r ∨ c = .motor a g ∨ c = .labelDevice a g) →
    ∃ m : Mou, exec c s = .next { s with plant := { s.plant with mou := m } }
      ∧ (a = .A → m = { s.plant.mou with accA :=
          { s.plant.mou.accA with late := min 65535 (s.plant.mou.accA.late + 1) } })
      ∧ (a = .B → m = { s.plant.mou with accB :=
          { s.plant.mou.accB with late := min 65535 (s.plant.mou.accB.late + 1) } }))
  ∧ (∀ (d : DriveNo) (f : BitVec 16) (br bw : BitVec 24) (s : State), s.reports →
    ∃ x, x.plant.dru.drives.get d = { s.plant.drive d with stray := min 65535 ((s.plant.drive d).stray + 1) }
      ∧ (∀ e, e ≠ d → x.plant.dru.drives.get e = s.plant.drive e)
      ∧ x = { s with plant := { s.plant with dru := x.plant.dru } }
      ∧ ((s.plant.drive d).state ≠ .threading → (s.plant.drive d).state ≠ .faulted →
          exec (.ready d) s = .next x.settled ∧ exec (.threadFail d) s = .next x.settled)
      ∧ (∀ t k, (s.plant.drive d).state = .threading → (s.plant.drive d).bound = some t → s.plant.task? t = some k →
          k.pending ≠ none → exec (.ready d) s = .next x.settled)
      ∧ (((s.plant.drive d).state = .absent ∨ (s.plant.drive d).state = .offline ∨ (s.plant.drive d).state = .empty
          ∨ (s.plant.drive d).state = .cleanDue ∨ (s.plant.drive d).state = .reserved ∨ (s.plant.drive d).state = .unloaded
          ∨ ((s.plant.drive d).state = .heldReel ∧ (s.plant.drive d).unloadSeen = true)) →
          exec (.unloaded d f br bw) s = .next x.settled)
      ∧ ((s.plant.drive d).state = .absent → exec (.online d) s = .next x.settled)
      ∧ (((s.plant.drive d).state = .absent ∨ (s.plant.drive d).state = .offline) → exec (.offline d) s = .next x)
      ∧ (((s.plant.drive d).state = .absent ∨ (s.plant.drive d).state = .offline ∨ (s.plant.drive d).state = .faulted) →
          exec (.check d) s = .next x))

/-- R83, R84: a step is sent with the accessor's next tag, which rises by one and wraps at 255, and is in flight
until its deadline: 40 ticks and 2 for each bay travelled, 100 for a PICK, PLACE or RECOVER, 20 for each position
read. R87, R102: a STEPPING accessor with no step in flight, no hold in force and a leg in hand sends the next step of its
leg: a TRAVEL to the source bay where it is elsewhere, then the PICK; a TRAVEL to the destination bay, then the PLACE; an
audit leg's TRAVEL, then its READ, of one position where a leg of a higher class waits. R94: before a TRAVEL into 48–79 it
claims the zone: granted where it is free, and the TRAVEL sent; where the other accessor holds it the claim waits, once,
and nothing is sent. R65: a PLACE of a WRITE mount onto its drive is sent only of a volume that is not FENCED, not WORN and
RINGED; else the leg ends with the reel in the gripper and the task is returned with FENCED, or WORN, its drive given up,
or goes to its ring stop. So every step that the end of an action sends is such a step, in its order, with no hold in
force (R101), its frame made, and a TRAVEL into 48–79 only by the holder of the zone. R88, R95, R56: the completion of a
TRAVEL ends the step and sets the bay to its target; a holder that has come to
a bay outside 48–79 releases the grant, and a waiting claimant is granted it in the same action; an errand ends with
it; of a leg in hand it is one step more done, and the leg goes on. A leg that is to end (R90) ends there; for a task
whose reel is elsewhere nothing else is planned by it (the model's reading, log 34). -/
def Obligations.StepsAreSentAndTravelsArrive : Prop :=
  ((∀ (e : Env) (a : Acc) (k : StepKind) (x : Plant),
    ((x.sendStep e a k).acc a).step
        = some { kind := k, tag := (x.acc a).nextTag, deadline := e.tick + ticks (stepAllowance (x.acc a).bay k) }
    ∧ ((x.sendStep e a k).acc a).nextTag = (x.acc a).nextTag + 1
    ∧ (x.sendStep e a k).acc a.other = x.acc a.other
    ∧ (x.sendStep e a k).out = { x.out with m := x.out.m ++ [.step a k (x.acc a).nextTag] })
  ∧ (∀ b c : Nat, stepAllowance (some b) (.travel c) = 40 + 2 * Int.natAbs ((c : Int) - b))
  ∧ ∀ (o : Option Nat) (b f l : Nat) (cl : Bool),
      stepAllowance o (.pick b f) = 100 ∧ stepAllowance o (.place b f) = 100 ∧ stepAllowance o (.recover cl b) = 100
      ∧ stepAllowance o (.read b f l) = 20 * (l - f + 1))
  ∧ (∀ (e : Env) (a : Acc) (x : Plant) (l : Leg) (k : StepKind) (b : Nat) (grip : Acc → Option Nat),
    e.held = false → (x.acc a).step = none → (x.acc a).state = .stepping → (x.acc a).leg = some l →
    (x.acc a).ending = false → (x.yielding a = true → ∀ h, (x.acc a).bay = some h → 48 ≤ h ∧ h ≤ 79) →
    grip = (fun g => (x.acc g).bay) →
    (((∀ o, l.owner ≠ .audit o) ∧ l.picked = false ∧ l.src.bay grip = some b ∧ k = .pick b l.src.pos)
      ∨ ((∀ o, l.owner ≠ .audit o) ∧ l.picked = true ∧ ∃ d, l.dst = some d ∧ d.bay grip = some b ∧ k = .place b d.pos
        ∧ ∀ c t m q v, d = .drive c → l.owner = .task t → x.task? t = some m → m.intent = .write → m.serial = some q →
            x.vol? q = some v → e.fenced q = false ∧ v.worn = false ∧ v.ring = .ringed)
      ∨ ∃ o, l.owner = .audit o ∧ b = l.bay ∧ k = .read b l.pos (if x.higherWaits a then l.pos else l.last)) →
    ((x.acc a).bay = some b → x.act e a = some (x.sendStep e a k))
    ∧ ((x.acc a).bay ≠ some b →
      ((b < 48 ∨ 79 < b ∨ x.mou.holder = some a) → x.act e a = some (x.sendStep e a (.travel b)))
      ∧ (48 ≤ b → b ≤ 79 →
        (x.mou.holder = none → x.act e a = some (Plant.sendStep e a (.travel b) { x with mou := { x.mou with
          holder := some a, claimant := if x.mou.claimant = some a then none else x.mou.claimant,
          tenureEnd := some (e.tick + ticks e.set.tenure), tenure := e.set.tenure, expired := false } }))
        ∧ (x.mou.holder = some a.other → x.mou.claimant ≠ some a →
            x.act e a = some { x with mou := { x.mou with claimant := some a } })
        ∧ (x.mou.holder = some a.other → x.mou.claimant = some a → x.act e a = none))))
  ∧ (∀ (e : Env) (a : Acc) (x : Plant) (l : Leg) (b : Nat) (d : DriveNo) (t : TaskNo) (k : Task) (q : Serial) (v : Volume),
    e.held = false → (x.acc a).step = none → (x.acc a).state = .stepping → (x.acc a).leg = some l →
    (x.acc a).ending = false → (x.yielding a = true → ∀ h, (x.acc a).bay = some h → 48 ≤ h ∧ h ≤ 79) →
    l.owner = .task t → l.picked = true → l.dst = some (.drive d) →
    (Location.drive d).bay (fun g => (x.acc g).bay) = some b → (x.acc a).bay = some b →
    x.task? t = some k → k.intent = .write → k.serial = some q → x.vol? q = some v → v.loc = .gripper a →
    v.bound = some t → (∀ c, (x.drive c).bound = some t ↔ c = d) → (x.drive d).state = .reserved →
    ((e.fenced q = true ∨ v.worn = true) →
      ∃ y m, x.act e a = some y ∧ (y.acc a).leg = none ∧ (y.acc a).step = none ∧ (y.acc a).gripper = (x.acc a).gripper
        ∧ y.vol? q = some v ∧ y.task? t = some m ∧ m.pending = some (if e.fenced q = true then .fenced else .worn)
        ∧ (y.drive d).bound = none ∧ (y.drive d).mountOpen = false
        ∧ (y.drive d).state = (if (x.drive d).offlinePending then .offline else .empty))
    ∧ ∀ n, e.fenced q = false → v.worn = false → v.ring = .ringless → k.service = none → x.emptyService = some n →
      capable a (.gripper a) (.service n) = true →
      ∃ y m g, x.act e a = some y ∧ (y.acc a).leg = none ∧ (y.acc a).step = none
        ∧ (y.acc a).gripper = (x.acc a).gripper ∧ y.task? t = some m ∧ m.pending = k.pending ∧ m.service = some n
        ∧ y.service n = Slot.reserve t ∧ g ∈ y.mou.queue ∧ g.owner = .task t ∧ g.src = .gripper a
        ∧ g.dst = some (.service n) ∧ y.dru = x.dru)
  ∧ (∀ (e : Env) (a : Acc) (f : InFlight) (x : Plant) (grip : Acc → Option Nat), ∀ y, y = x.settle e →
    (x.acc a).step = none → (y.acc a).step = some f → grip = (fun g => (x.acc g).bay) →
    e.held = false ∧ f.tag = (x.acc a).nextTag ∧ (y.acc a).nextTag = (x.acc a).nextTag + 1
    ∧ f.deadline = e.tick + ticks (stepAllowance (x.acc a).bay f.kind)
    ∧ (∃ l, y.out.m = x.out.m ++ l ∧ MFrame.step a f.kind f.tag ∈ l)
    ∧ (∀ b, f.kind = .travel b → (y.acc a).state = .stepping ∧ (48 ≤ b → b ≤ 79 → y.mou.holder = some a))
    ∧ (∀ b p, f.kind = .pick b p → (y.acc a).state = .stepping ∧ (x.acc a).bay = some b
        ∧ ∃ l, (y.acc a).leg = some l ∧ (∀ o, l.owner ≠ .audit o) ∧ l.picked = false ∧ l.src.bay grip = some b
          ∧ l.src.pos = p)
    ∧ (∀ b p, f.kind = .place b p → (y.acc a).state = .stepping ∧ (x.acc a).bay = some b
        ∧ ∃ l d, (y.acc a).leg = some l ∧ (∀ o, l.owner ≠ .audit o) ∧ l.picked = true ∧ l.dst = some d
          ∧ d.bay grip = some b ∧ d.pos = p
          ∧ ∀ c t k q v, d = .drive c → l.owner = .task t → x.task? t = some k → k.intent = .write → k.serial = some q →
              x.vol? q = some v → e.fenced q = false ∧ v.worn = false ∧ v.ring = .ringed)
    ∧ (∀ b p r, f.kind = .read b p r → (y.acc a).state = .stepping ∧ (x.acc a).bay = some b
        ∧ ∃ l o, (y.acc a).leg = some l ∧ l.owner = .audit o ∧ l.bay = b ∧ l.pos = p ∧ (r = p ∨ r = l.last))
    ∧ ∀ c b, f.kind = .recover c b → (y.acc a).state = .recovering ∧ (x.acc a).state = .recovering
        ∧ (x.acc a).recoverDue = true ∧ (x.mou.holder = some a → c = false)
        ∧ (x.mou.holder ≠ some a → x.mou.claimant ≠ some a → c = true))
  ∧ (∀ (a : Acc) (b : Nat) (f : InFlight) (s : State), s.free → (s.plant.acc a).step = some f → f.kind = .travel b →
    ∀ came : Plant → Prop,
    (came = fun y => exec (.arrived a f.tag) s = .next { s with plant := y.settle s.env }
      ∧ y.acc a.other = s.plant.acc a.other
      ∧ (s.plant.mou.holder = some a → (b < 48 ∨ 79 < b) →
          y.mou.holder = s.plant.mou.claimant
          ∧ y.mou.expired = false
          ∧ (s.plant.mou.claimant = none → y.mou.tenureEnd = none)
          ∧ (s.plant.mou.claimant ≠ none → y.mou.tenureEnd = some (s.env.tick + ticks s.env.set.tenure)
              ∧ y.mou.tenure = s.env.set.tenure))
      ∧ ((s.plant.mou.holder ≠ some a ∨ (48 ≤ b ∧ b ≤ 79)) → y.mou.holder = s.plant.mou.holder
          ∧ y.mou.tenureEnd = s.plant.mou.tenureEnd)
      ∧ y.ltu = s.plant.ltu ∧ y.tcu = s.plant.tcu ∧ y.dru = s.plant.dru ∧ y.out = s.plant.out
      ∧ y.mou.queue = s.plant.mou.queue ∧ y.mou.handoff = s.plant.mou.handoff) →
    ((s.plant.acc a).leg = none → s.env.held = false →
      ∃ y, came y ∧ y.acc a = { s.plant.acc a with step := none, bay := some b, errand := none, state := .idle })
    ∧ (∀ l, (s.plant.acc a).leg = some l → (s.plant.acc a).ending = false →
      ∃ y, came y ∧ y.acc a = { s.plant.acc a with
        step := none, bay := some b, errand := none, leg := some { l with steps := l.steps + 1 } })
    ∧ ∀ l, (s.plant.acc a).leg = some l → (s.plant.acc a).ending = true → s.env.held = false →
      ((∃ t live, l.owner = .found t live)
        ∨ ∃ t k, l.owner = .task t ∧ s.plant.task? t = some k ∧ k.pending = none ∧ s.plant.reelAt k ≠ some (.gripper a)) →
      ∃ y, came y ∧ y.acc a = { s.plant.acc a with
        step := none, bay := some b, errand := none, leg := none, ending := false, state := .idle })

/-- R66, R88: a PICK whose label names the task's volume (a match), at whatever place the volume is located, puts it in
the gripper: its location and the gripper follow, the step is over and the leg goes on with its reel picked. A cell or a
slot so left is EMPTY, with its task's reservation of it; a drive so left is unbound and, its reel gone, OFFLINE where
offline-pending, CLEAN-DUE where cleaning is due, else EMPTY (R125); a service slot held against a wrong reel from an
entry slot is given up unless the leg ends there (R62). R67: another label, or none readable, is a WRONG-REEL: the volume
believed there is UNKNOWN, the task takes the tag WRONG-REEL and waits on a LOCATE prompt, its leg ended; the reel is in
the gripper, by its serial where the table has it (that volume being located there), else as UNKNOWN REEL; a RECOVERY
leg carries it to the lowest EMPTY service slot, reserved for it, or back to the cell, reserved again, where there is
none; and the accessor owns a WRONG-REEL prompt. That the carry is owned by the record of the task that found it is the
model's reading (log 23). R88, R125: a PICK at a drive whose task has ended since (its leg ending at this completion,
logs 23 and 34) takes the UNLOADED drive up all the same, and a RECOVERY task is requested for the reel in the gripper.
R69: a PICK at a cell that closes on nothing leaves the gripper EMPTY and ends the leg: the
volume believed there is UNKNOWN and the cell EMPTY, and a mount's task waits on a LOCATE prompt for it. -/
def Obligations.PicksTakeOrMissTheReel : Prop :=
  (∀ (a : Acc) (f : InFlight) (b p : Nat) (l : Leg) (t : TaskNo) (k : Task) (q : Serial) (v : Volume) (s : State),
    s.free → (s.plant.acc a).step = some f → f.kind = .pick b p → (s.plant.acc a).leg = some l →
    (s.plant.acc a).ending = false → l.owner = .task t → s.plant.task? t = some k →
    k.serial = some q → s.plant.vol? q = some v → v.loc = l.src → s.plant.volAt? (.gripper a) = none →
    l.src ≠ .outside → l.src ≠ .unknown → (∀ g, l.src ≠ .gripper g) →
    ∃ (y : Plant) (w : Volume) (m : Task), exec (.picked a f.tag (.serial q)) s = .next { s with plant := y.settle s.env }
      ∧ y.vol? q = some w ∧ w = { v with loc := .gripper a, misfiled := false, refilePending := false }
      ∧ (∀ r, r ≠ q → y.vol? r = s.plant.vol? r)
      ∧ (y.acc a).gripper = .known q ∧ (y.acc a).step = none ∧ ((y.acc a).viaEntry = true ↔ ∃ n, l.src = .entry n)
      ∧ (y.acc a).leg = some { l with picked := true, steps := l.steps + 1 }
      ∧ y.acc a.other = s.plant.acc a.other ∧ y.task? t = some m ∧ m.state = k.state ∧ m.tags = k.tags ∧ m.cell = k.cell
      ∧ (∀ u, u ≠ t → (∀ n, l.src = .service n → (s.plant.service n).task ≠ some u) →
          (∀ h, l.src = .handoff h → (s.plant.handoff h).task ≠ some u) → y.task? u = s.plant.task? u)
      ∧ y.ltu.pool = s.plant.ltu.pool
      ∧ (∀ c, l.src = .cell c → (s.plant.cell c).occ = .occupied q → (y.cell c).occ = .empty
          ∧ ∀ d, d ≠ c → y.cell d = s.plant.cell d)
      ∧ (∀ n, l.src = .service n → (s.plant.service n).content = some (.known q) →
          y.service n = Slot.clear ∧ m.service = k.service.filter (fun i => i ≠ n))
      ∧ (∀ h, l.src = .handoff h → (s.plant.handoff h).content = some (.known q) →
          y.handoff h = Slot.clear ∧ m.handoff = k.handoff.filter (fun i => i ≠ h))
      ∧ (∀ n, l.src = .entry n → y.entry n = Slot.clear ∧ (∀ i, i ≠ n → y.entry i = s.plant.entry i)
          ∧ (∀ i, k.service = some i → s.plant.service i = Slot.reserve t →
              ((∀ j, l.dst ≠ some (.service j)) → y.service i = Slot.clear ∧ m.service = none)
              ∧ ((∃ j, l.dst = some (.service j)) → y.service i = Slot.reserve t ∧ m.service = some i)))
      ∧ ((∀ d, l.src ≠ .drive d) → y.dru = s.plant.dru ∧ y.out = s.plant.out)
      ∧ (∀ d r, l.src = .drive d → r = s.plant.drive d → r.bound = some t → r.state = .unloaded →
          (∀ c, (s.plant.drive c).bound = some t → c = d) →
          (∀ c, c ≠ d → y.drive c = s.plant.drive c)
          ∧ y.drive d = { r with
            volume := none, bound := none, mountOpen := false, unloadSeen := false, rethreadDone := false,
            offlinePending := false,
            state := if r.offlinePending then .offline
              else if r.interval ≠ 0 ∧ r.interval ≤ r.footage then .cleanDue else .empty }))
  ∧ (∀ (a : Acc) (f : InFlight) (b p : Nat) (l : Leg) (t : TaskNo) (k : Task) (q : Serial) (v : Volume) (c : CellNo)
    (lb : Label) (s : State), s.free → s.env.held = false → (s.plant.acc a).step = some f → f.kind = .pick b p →
    (s.plant.acc a).leg = some l → l.owner = .task t → l.src = .cell c → s.plant.task? t = some k →
    k.kind = .mount → k.state = .moving → k.pending = none → k.handoff = none → k.service = none → k.cell = none →
    k.serial = some q → s.plant.vol? q = some v → v.loc = .cell c → (s.plant.cell c).occ = .occupied q →
    s.plant.pru.table.length < 31 → s.plant.pru.later = none → lb ≠ .serial q →
    (∀ r x, lb = .serial r → s.plant.vol? r = some x → (∀ i, x.loc ≠ .service i) ∧ x.loc ≠ .gripper a ∧ x.bound ≠ some t) →
    ∃ (y : Plant) (w : Volume) (m : Task) (g : Leg) (n1 n2 : Prompt),
      exec (.picked a f.tag lb) s = .next { s with plant := y.settle s.env }
      ∧ y.vol? q = some w ∧ w = { v with loc := .unknown, misfiled := false, refilePending := false }
      ∧ (y.acc a).step = none ∧ (y.acc a).leg = none ∧ (y.acc a).state = .idle
      ∧ y.task? t = some m ∧ m.state = .opwait ∧ m.tags = addTag .wrongReel k.tags ∧ m.prompt = some n2.number
      ∧ g ∈ y.mou.queue ∧ g.owner = .found t true ∧ g.cls = .recovery ∧ g.src = .gripper a ∧ g.capableFor a = true
      ∧ g.capableFor a.other = false ∧ (∀ h ∈ y.mou.queue, h.owner ≠ .task t)
      ∧ n1 ∈ y.pru.table ∧ n1.kind = .wrongReel ∧ n1.owner = .acc a ∧ n1.params.vol = some q
      ∧ n1.params.ser2 = labelSerial lb ∧ n1.params.cell = some c
      ∧ n2 ∈ y.pru.table ∧ n2.kind = .locate ∧ n2.owner = .task t ∧ n2.params.vol = some q
      ∧ (∀ r x, lb = .serial r → s.plant.vol? r = some x → (y.acc a).gripper = .known r
          ∧ y.vol? r = some { x with loc := .gripper a, misfiled := false, refilePending := false }
          ∧ ∀ u, x.bound = some u → ∀ h ∈ y.mou.queue, h.owner ≠ .task u)
      ∧ ((∀ r, lb = .serial r → s.plant.vol? r = none) →
          (y.acc a).gripper = .unknownReel ∧ (y.acc a).read = labelSerial lb)
      ∧ (∀ i, s.plant.emptyService = some i → g.dst = some (.service i) ∧ y.service i = Slot.reserve t
          ∧ (y.cell c).occ = .empty)
      ∧ (s.plant.emptyService = none → g.dst = some (.cell c) ∧ ∃ r, (y.cell c).occ = .reserved r t
          ∧ ∀ z, r = some z ↔ (lb = .serial z ∧ s.plant.vol? z ≠ none))
      ∧ y.dru = s.plant.dru ∧ y.ltu.pool = s.plant.ltu.pool)
  ∧ (∀ (a : Acc) (f : InFlight) (b p : Nat) (l : Leg) (t : TaskNo) (k : Task) (q : Serial) (v : Volume) (c : CellNo)
    (s : State), s.free → s.env.held = false → (s.plant.acc a).step = some f → f.kind = .pick b p →
    (s.plant.acc a).leg = some l → l.owner = .task t → l.src = .cell c → s.plant.task? t = some k →
    k.kind = .mount → k.state = .moving → k.pending = none → k.handoff = none → k.service = none → k.cell = none →
    k.serial = some q → s.plant.vol? q = some v → v.loc = .cell c → (s.plant.cell c).occ = .occupied q →
    s.plant.pru.table.length < 32 → s.plant.pru.backlog = [] → s.plant.pru.later = none →
    ∃ (y : Plant) (w : Volume) (m : Task) (n : Nat) (r : Prompt),
      exec (.gripMiss a f.tag) s = .next { s with plant := y.settle s.env }
      ∧ y.vol? q = some w ∧ w = { v with loc := .unknown, misfiled := false, refilePending := false }
      ∧ (∀ r, r ≠ q → y.vol? r = s.plant.vol? r)
      ∧ (y.cell c).occ = .empty ∧ (y.acc a).gripper = .empty ∧ (y.acc a).step = none ∧ (y.acc a).leg = none
      ∧ (y.acc a).state = .idle ∧ y.task? t = some m ∧ m.state = .opwait ∧ m.prompt = some n
      ∧ r ∈ y.pru.table ∧ r.number = n ∧ r.kind = .locate ∧ r.owner = .task t ∧ r.params.vol = some q
      ∧ y.dru = s.plant.dru)
  ∧ (∀ (a : Acc) (f : InFlight) (b p : Nat) (l : Leg) (t : TaskNo) (d : DriveNo) (lb : Label) (r : Drive) (s : State),
    s.free → s.env.held = false → (s.plant.acc a).step = some f → f.kind = .pick b p → (s.plant.acc a).leg = some l →
    l.owner = .found t false → l.src = .drive d → r = s.plant.drive d → r.state = .unloaded → r.bound = none →
    ∃ y : Plant, exec (.picked a f.tag lb) s = .next { s with plant := y.settle s.env }
      ∧ y.drive d = { r with
        volume := none, unloadSeen := false, rethreadDone := false, offlinePending := false,
        state := if r.offlinePending then .offline
          else if r.interval ≠ 0 ∧ r.interval ≤ r.footage then .cleanDue else .empty }
      ∧ (∀ c, c ≠ d → y.drive c = s.plant.drive c)
      ∧ (y.acc a).leg = none ∧ (y.acc a).step = none ∧ (y.acc a).state = .idle ∧ Request.gripper a ∈ y.tcu.requests
      ∧ ((∀ q, lb ≠ .serial q) → (y.acc a).gripper = .unknownReel)
      ∧ ∀ q v, lb = .serial q → s.plant.vol? q = some v → (y.acc a).gripper = .known q
        ∧ (y.vol? q).map (fun w : Volume => w.loc) = some (.gripper a))

/-- R65, R88, R89, R120: a PLACE onto the task's RESERVED drive puts the volume there and empties the gripper, ends
the leg, makes the drive THREADING with the volume named, and the task THREADING. A PLACE into the reserved cell puts the
volume there, MISFILED with the refile pending mark where the cell is not a resident's home (R7), and ends the task, its
volume bound no more and its dismount requester answered (R53, R71); one into a service slot opens the REMOVE prompt (R73) or
the RING prompt (R64) there; one into a handoff slot queues leg 2 from it (R57). R70: a PLACE-BLOCKED leaves the reel in
the gripper and ends the leg: a blocked drive is FAULTED over EMPTY, its mount no more, and the task returns with
MECHANISM FAILED, or an earlier pending status that is kept (the model's reading, log 33); a blocked cell is SUSPECT and
the free-cell choice is made, with the tag MISFILED-RETURN (that the home is not looked at again is the model's reading, log
70), or, with no cell free, the reel goes to the service rack; a blocked service or handoff slot holds UNKNOWN REEL, for
which a RECOVERY task is requested, and another service slot is taken. R16, R70: the carry of a wrong reel blocked at the
cell it is put back in goes, unless it is a visitor, to the free-cell choice; through the lowest EMPTY handoff slot where
that cell is beyond the accessor's reach (the model's choice, log 17). R68: a carry set down in a service slot
leaves a reel that no task is bound to without a task, and a RECOVERY task is requested for it; set down in a cell, an
unknown reel makes it FOREIGN, and a known volume is located there. -/
def Obligations.PlacesSetTheReelDownOrKeepIt : Prop :=
  (∀ (a : Acc) (f : InFlight) (b p : Nat) (l : Leg) (t : TaskNo) (k : Task) (q : Serial) (v : Volume) (s : State),
    s.free → s.env.held = false → (s.plant.acc a).step = some f → f.kind = .place b p →
    (s.plant.acc a).leg = some l → l.owner = .task t → (s.plant.acc a).gripper = .known q → s.plant.task? t = some k →
    k.serial = some q → s.plant.vol? q = some v → v.loc = .gripper a → ∀ set : Plant → Prop,
    (set = fun y => exec (.placed a f.tag) s = .next { s with plant := y.settle s.env }
      ∧ (y.acc a).gripper = .empty ∧ (y.acc a).leg = none ∧ (y.acc a).step = none ∧ (y.acc a).state = .idle
      ∧ (y.acc a).viaEntry = false ∧ ∀ u, u ≠ t → y.task? u = s.plant.task? u) →
    (∀ d, l.dst = some (.drive d) → l.work = .toDrive → k.pending = none → (s.plant.drive d).state = .reserved →
      s.plant.volAt? (.drive d) = none →
      ∃ (y : Plant) (w : Volume) (m : Task), set y
        ∧ y.vol? q = some w ∧ w.loc = .drive d ∧ (∀ r, r ≠ q → y.vol? r = s.plant.vol? r)
        ∧ y.drive d = { s.plant.drive d with state := .threading, volume := some q }
        ∧ (∀ e, e ≠ d → y.drive e = s.plant.drive e) ∧ y.task? t = some m ∧ m.state = .threading
        ∧ y.out = s.plant.out)
    ∧ (∀ c, l.dst = some (.cell c) → l.work = .store → v.bound = some t → k.prompt = none →
      ∃ (y : Plant) (w : Volume), set y ∧ y.vol? q = some w ∧ w.loc = .cell c ∧ w.bound = none
        ∧ (w.misfiled = true ↔ (v.cls = .resident ∧ v.home ≠ some c)) ∧ w.refilePending = w.misfiled
        ∧ (y.cell c).occ = .occupied q ∧ y.task? t = none
        ∧ (∀ p g, k.requester = some (p, g) → k.pending = none →
            CFrame.status p (some g) .last (.dismounted (k.drive.getD 0)) ∈ y.out.c)
        ∧ ∀ p g r, k.origin = .path p g → k.answered = false → k.pending = some r →
            CFrame.status p (some g) .last (.ended r k.tags) ∈ y.out.c)
    ∧ (∀ n, l.dst = some (.service n) → s.plant.pru.table.length < 32 → s.plant.pru.later = none →
      (s.plant.service n).task = some t →
      ((l.work = .remove → ∃ (y : Plant) (w : Volume) (m : Task) (r : Prompt), set y
        ∧ y.vol? q = some w ∧ w.loc = .service n
        ∧ y.service n = { state := .occupied, content := some (.known q), task := some t }
        ∧ r ∈ y.pru.table ∧ r.kind = .remove ∧ r.owner = .task t ∧ r.params.slot = some (.service n)
        ∧ r.params.vol = some q ∧ y.task? t = some m ∧ m.prompt = some r.number ∧ m.requester = none
        ∧ (k.state ≠ .demounting → m.state = .opwait) ∧ (k.state = .demounting → m.state = .demounting)
        ∧ y.dru = s.plant.dru)
      ∧ (l.work = .ringStop → k.pending = none → k.state ≠ .demounting →
        ∃ (y : Plant) (w : Volume) (m : Task) (r : Prompt), set y
        ∧ y.vol? q = some w ∧ w.loc = .service n
        ∧ y.service n = { state := .occupied, content := some (.known q), task := some t }
        ∧ r ∈ y.pru.table ∧ r.kind = .ring ∧ r.owner = .task t ∧ r.params.slot = some (.service n)
        ∧ r.params.vol = some q ∧ r.params.drive = k.drive ∧ y.task? t = some m ∧ m.prompt = some r.number
        ∧ m.state = .opwait ∧ m.tags = addTag .ringPrompted k.tags ∧ y.dru = s.plant.dru)))
    ∧ ∀ h, l.dst = some (.handoff h) → k.pending = none → (s.plant.handoff h).task = some t → ∀ dst,
      ((l.work = .toDrive ∧ ∃ d, k.drive = some d ∧ dst = .drive d ∧ (s.plant.drive d).state = .reserved)
        ∨ (l.work = .store ∧ ∃ c, k.cell = some c ∧ dst = .cell c ∧ (c / 16 ≤ 127))) →
      ∃ (y : Plant) (w : Volume) (g : Leg), set y ∧ y.vol? q = some w ∧ w.loc = .handoff h
        ∧ y.handoff h = { state := .occupied, content := some (.known q), task := some t }
        ∧ g ∈ y.mou.queue ∧ g.owner = .task t ∧ g.src = .handoff h ∧ g.dst = some dst ∧ g.picked = false
        ∧ g.steps = 0 ∧ y.dru = s.plant.dru)
  ∧ (∀ (a : Acc) (f : InFlight) (b p : Nat) (l : Leg) (t : TaskNo) (k : Task) (q : Serial) (v : Volume) (s : State),
    s.free → s.env.held = false → (s.plant.acc a).step = some f → f.kind = .place b p →
    (s.plant.acc a).leg = some l → l.owner = .task t → (s.plant.acc a).gripper = .known q → s.plant.task? t = some k →
    k.serial = some q → s.plant.vol? q = some v → v.loc = .gripper a → k.prompt = none →
    (∀ u m, s.plant.task? u = some m → m.waiter = none) → ∀ kept : Plant → Task → Prop,
    (kept = fun y m => exec (.placeBlocked a f.tag) s = .next { s with plant := y.settle s.env }
      ∧ (y.acc a).gripper = .known q ∧ (y.acc a).leg = none ∧ (y.acc a).step = none ∧ (y.acc a).state = .idle
      ∧ y.vol? q = some v ∧ y.task? t = some m ∧ ∀ u, u ≠ t → y.task? u = s.plant.task? u) →
    (∀ d, l.dst = some (.drive d) → (s.plant.drive d).bound = some t →
      (∀ c, (s.plant.drive c).bound = some t → c = d) → k.state ≠ .demounting →
      ∃ y m, kept y m ∧ m.pending = k.pending.or (some .mechanismFailed)
        ∧ (y.drive d).state = .faulted ∧ (y.drive d).preFault = some .empty ∧ (y.drive d).bound = none
        ∧ (y.drive d).mountOpen = false ∧ ∀ c, c ≠ d → y.drive c = s.plant.drive c)
    ∧ (∀ c, l.dst = some (.cell c) → k.cell = some c → (s.plant.cell c).occ = .reserved (some q) t →
      (∀ c2, s.plant.freeCell = some c2 →
        ∃ y m, kept y m ∧ (y.cell c).occ = .suspect ∧ (y.cell c2).occ = .reserved (some q) t ∧ m.cell = some c2
          ∧ m.tags = addTag .misfiledReturn k.tags ∧ y.dru = s.plant.dru)
      ∧ ∀ n, s.plant.freeCell = none → k.service = none → s.plant.emptyService = some n →
        ∃ y m g, kept y m ∧ (y.cell c).occ = .suspect ∧ m.cell = none ∧ m.tags = k.tags
          ∧ y.service n = Slot.reserve t ∧ m.service = some n ∧ g ∈ y.mou.queue ∧ g.owner = .task t ∧ g.src = .gripper a
          ∧ g.dst = some (.service n) ∧ y.dru = s.plant.dru)
    ∧ (∀ n n2, l.dst = some (.service n) → (s.plant.service n).state = .reserved → s.plant.emptyService = some n2 →
      (l.work = .remove ∨ l.work = .ringPull ∨ l.work = .returnSlot) →
      ∃ y m g, kept y m ∧ y.service n = { state := .occupied, content := some .unknown, task := none }
        ∧ Request.service n ∈ y.tcu.requests ∧ y.service n2 = Slot.reserve t ∧ m.service = some n2
        ∧ g ∈ y.mou.queue ∧ g.owner = .task t ∧ g.src = .gripper a ∧ g.dst = some (.service n2) ∧ y.dru = s.plant.dru)
    ∧ ∀ h c, l.dst = some (.handoff h) → (s.plant.handoff h).state = .reserved → l.work = .store → k.cell = some c →
      (Location.cell c).within a = false → k.pending = none →
      ∃ y m, kept y m ∧ y.handoff h = { state := .occupied, content := some .unknown, task := none }
        ∧ Request.handoff h ∈ y.tcu.requests
        ∧ (∀ h2, s.plant.emptyHandoff = some h2 → y.handoff h2 = Slot.reserve t ∧ m.handoff = some h2
            ∧ ∃ g ∈ y.mou.queue, g.owner = .task t ∧ g.src = .gripper a ∧ g.dst = some (.handoff h2)
              ∧ g.onward = some (.cell c))
        ∧ (s.plant.emptyHandoff = none → m.handoff = none ∧ m.waiter = some .handoff
            ∧ (k.state ≠ .demounting → m.state = .waiting ∧ m.wait = some .handoff)))
  ∧ (∀ (a : Acc) (f : InFlight) (b p : Nat) (l : Leg) (t : TaskNo) (live : Bool) (g : Option Serial) (s : State),
    s.free → s.env.held = false → (s.plant.acc a).step = some f → f.kind = .place b p →
    (s.plant.acc a).leg = some l → l.owner = .found t live →
    ((g = none ∧ (s.plant.acc a).gripper = .unknownReel)
      ∨ ∃ q v, g = some q ∧ (s.plant.acc a).gripper = .known q ∧ s.plant.vol? q = some v ∧ v.loc = .gripper a
        ∧ v.bound = none) →
    (∀ c c2, l.dst = some (.cell c) → (∃ r u, (s.plant.cell c).occ = .reserved r u) →
      s.plant.freeCell = some c2 → (g = none ∨ ∃ q v, g = some q ∧ s.plant.vol? q = some v ∧ v.cls = .resident) →
      ∃ y : Plant, exec (.placeBlocked a f.tag) s = .next { s with plant := y.settle s.env }
        ∧ (y.acc a).gripper = (s.plant.acc a).gripper ∧ (y.acc a).leg = none ∧ (y.acc a).state = .idle
        ∧ (y.cell c).occ = .suspect ∧ y.dru = s.plant.dru
        ∧ ((Location.cell c2).within a = true → y.tcu = s.plant.tcu ∧ (y.cell c2).occ = .reserved g t
            ∧ ∃ x ∈ y.mou.queue, x.owner = .found t live ∧ x.cls = .recovery ∧ x.src = .gripper a
              ∧ x.dst = some (.cell c2))
        ∧ ∀ h, (Location.cell c2).within a = false → s.plant.emptyHandoff = some h → y.tcu = s.plant.tcu
            ∧ y.handoff h = Slot.reserve t
            ∧ ∃ x ∈ y.mou.queue, x.owner = .found t live ∧ x.cls = .recovery ∧ x.src = .gripper a
              ∧ x.dst = some (.handoff h))
    ∧ (∀ n, l.dst = some (.service n) →
      ∃ y : Plant, exec (.placed a f.tag) s = .next { s with plant := y.settle s.env }
        ∧ (y.acc a).gripper = .empty ∧ (y.acc a).leg = none ∧ (y.acc a).state = .idle
        ∧ (y.service n).state = .occupied ∧ (y.service n).task = none ∧ Request.service n ∈ y.tcu.requests
        ∧ (g = none → (y.service n).content = some .unknown)
        ∧ (∀ q, g = some q → (y.service n).content = some (.known q)
            ∧ (y.vol? q).map (fun v : Volume => v.loc) = some (.service n))
        ∧ y.tcu.tasks = s.plant.tcu.tasks ∧ y.dru = s.plant.dru)
    ∧ ∀ c, l.dst = some (.cell c) →
      ∃ y : Plant, exec (.placed a f.tag) s = .next { s with plant := y.settle s.env }
        ∧ (y.acc a).gripper = .empty ∧ (y.acc a).leg = none ∧ (y.acc a).state = .idle
        ∧ (g = none → (y.cell c).occ = .foreign ∧ y.tcu = s.plant.tcu)
        ∧ (∀ q, g = some q → (y.cell c).occ = .occupied q ∧ (y.vol? q).map (fun v : Volume => v.loc) = some (.cell c))
        ∧ y.dru = s.plant.dru)

/-- R84, R86, R105: MOTOR for a step in flight, LABEL-DEVICE for one that reads a label, and the expiry of the step's
deadline fault the accessor with the codes MOTOR, LABEL-DEVICE and TIMEOUT: FAULTED, no step, no leg, no errand, the bay
unknown after a TRAVEL or a RECOVER and kept otherwise, the gripper as it was, its claim withdrawn and a held grant kept,
ACCESSOR-FAULT set, and an ACCESSOR-FAULT prompt with the accessor and the code requested. R79, R105: a task whose leg
was in hand keeps its reservations, has no leg in the queue, and goes to OPWAIT on that prompt (that a demounting one
stays DEMOUNTING and holds the prompt is the model's reading, log 32); an audit leg goes back to the queue as it stands and its list is SUSPENDED at its next
position. That an audit leg already asked to end (R104, R203) ends, that a wrong reel's carry gives up the cell or slot
reserved for it, and that a leg whose task has ended is in hand at all, are the model's readings (logs 73, 66 and 23). R228: in RESTARTING the fault is the accessor's answer, and
with both answers the library is RUNNING. R54: then a RECOVERY request waits for every OCCUPIED handoff or service slot
with no task (unless a prompt names the slot) and every HELD-REEL drive whose unload was seen. That an expiry
before the deadline does nothing is the model's choice (log 22). -/
def Obligations.FaultsStopTheAccessor : Prop :=
  ∀ (a : Acc) (f : InFlight) (s : State), s.free → (s.plant.acc a).step = some f →
    ∀ stopped : Instr → FaultCode → Nat → Plant → Prop,
    (stopped = fun c code n y => exec c s = .next { s with plant := y.settle s.env }
      ∧ ((y.acc a).state = .faulted ∧ (y.acc a).step = none ∧ (y.acc a).leg = none ∧ (y.acc a).errand = none
        ∧ (y.acc a).lastFault = some code ∧ (y.acc a).gripper = (s.plant.acc a).gripper
        ∧ (((∃ b, f.kind = .travel b) ∨ ∃ b r, f.kind = .recover b r) → (y.acc a).bay = none)
        ∧ ((∀ b, f.kind ≠ .travel b) → (∀ b r, f.kind ≠ .recover b r) → (y.acc a).bay = (s.plant.acc a).bay)
        ∧ y.mou.claimant ≠ some a ∧ y.mou.holder = s.plant.mou.holder ∧ y.acc a.other = s.plant.acc a.other)
      ∧ (y.mgu.flags.get EventFlag.accessorFault.index).isSet = true
      ∧ (s.plant.pru.table.length < 32 → s.plant.pru.later = none →
          ∃ p ∈ y.pru.table, p.number = n ∧ p.kind = .accessorFault ∧ p.owner = .acc a
            ∧ p.params = { acc := some a, code := some code })
      ∧ s.plant.mgu.answeredBy a y.mgu
      ∧ ((∀ r ∈ s.plant.tcu.requests, r ∈ y.tcu.requests)
        ∧ (s.plant.mgu.lib ≠ .restarting → y.tcu.requests = s.plant.tcu.requests)
        ∧ (s.plant.mgu.lib = .restarting → y.mgu.lib = .running →
          (∀ h, (y.handoff h).state = .occupied → (y.handoff h).task = none → Request.handoff h ∈ y.tcu.requests)
          ∧ (∀ m, (y.service m).state = .occupied → (y.service m).task = none →
              y.pru.namesSlot (.service m) = true ∨ Request.service m ∈ y.tcu.requests)
          ∧ ∀ d, (y.drive d).state = .heldReel → (y.drive d).unloadSeen = true → Request.drive d ∈ y.tcu.requests))) →
    (∀ (c : Instr) (code : FaultCode),
      ((c = .motor a f.tag ∧ code = .motor)
        ∨ (c = .labelDevice a f.tag ∧ code = .labelDevice
            ∧ ((∃ b p, f.kind = .pick b p) ∨ (∃ b p q, f.kind = .read b p q) ∨ ∃ b n, f.kind = .recover b n))
        ∨ (c = .stepDeadlineExpiry a ∧ code = .timeout ∧ reached s.env.tick f.deadline = true)) →
      ((s.plant.acc a).leg = none → ∃ n y, stopped c code n y ∧ y.ltu = s.plant.ltu ∧ y.dru = s.plant.dru
        ∧ y.tcu.tasks = s.plant.tcu.tasks ∧ y.mou.queue = s.plant.mou.queue ∧ y.mou.handoff = s.plant.mou.handoff
        ∧ y.adu = s.plant.adu)
      ∧ (∀ l t k, (s.plant.acc a).leg = some l → l.owner = .task t → s.plant.task? t = some k →
        ∃ n y m, stopped c code n y ∧ y.task? t = some m
          ∧ m = { k with faulted := some a, waiter := none, prompt := some n, state := m.state, wait := m.wait }
          ∧ (k.state = .demounting → m.state = .demounting)
          ∧ (k.state ≠ .demounting → m.state = .opwait ∧ m.wait = none)
          ∧ (∀ p g, k.origin = .path p g → k.answered = false → k.state ≠ .demounting →
              CFrame.status p (some g) .interim (.operator .accessorFault) ∈ y.out.c)
          ∧ (∀ u, u ≠ t → y.task? u = s.plant.task? u)
          ∧ y.mou.queue = s.plant.mou.queue.filter (fun g => g.owner ≠ .task t)
          ∧ y.ltu = s.plant.ltu ∧ y.dru = s.plant.dru ∧ y.mou.handoff = s.plant.mou.handoff ∧ y.adu = s.plant.adu)
      ∧ (∀ l o, (s.plant.acc a).leg = some l → l.owner = .audit o →
        ((s.plant.acc a).ending = false → ∃ n y, stopped c code n y
          ∧ y.list o = { s.plant.list o with state := .suspended, pos := some l.pos }
          ∧ (∀ v, v ≠ o → y.list v = s.plant.list v)
          ∧ (∃ u v, s.plant.mou.queue = u ++ v ∧ y.mou.queue = u ++ l :: v)
          ∧ y.ltu = s.plant.ltu ∧ y.dru = s.plant.dru ∧ y.tcu.tasks = s.plant.tcu.tasks)
        ∧ ((s.plant.acc a).ending = true → (s.plant.list o).startPending = false → ∃ n y, stopped c code n y
          ∧ y.list o = { s.plant.list o with live := false, pos := none } ∧ (∀ v, v ≠ o → y.list v = s.plant.list v)
          ∧ y.mou.queue = s.plant.mou.queue
          ∧ y.ltu = s.plant.ltu ∧ y.dru = s.plant.dru ∧ y.tcu.tasks = s.plant.tcu.tasks))
      ∧ (∀ l t live, (s.plant.acc a).leg = some l → l.owner = .found t live →
        ∃ n y, stopped c code n y ∧ y.tcu.tasks = s.plant.tcu.tasks ∧ y.mou.queue = s.plant.mou.queue ∧ y.adu = s.plant.adu
          ∧ (l.work = .carry →
            (∀ m, l.dst = some (.service m) → (s.plant.service m).state = .reserved → y.service m = Slot.clear)
            ∧ (∀ h, l.dst = some (.handoff h) → (s.plant.handoff h).state = .reserved → y.handoff h = Slot.clear)
            ∧ ∀ q r u, l.dst = some (.cell q) → (s.plant.cell q).occ = .reserved r u → (y.cell q).occ = .empty)
          ∧ (l.work ≠ .carry → y.ltu = s.plant.ltu ∧ y.dru = s.plant.dru ∧ y.mou.handoff = s.plant.mou.handoff)))
    ∧ (reached s.env.tick f.deadline = false → exec (.stepDeadlineExpiry a) s = .next s)

/-- R108: a RECOVERED that reports a bay beyond the accessor's reach, or one in 48–79 after a RECOVER in mode CLEAR,
faults the accessor with the code POSITION and no bay; a fit one that finds the gripper EMPTY, where no task waits
on the accessor and no volume is believed in its gripper, gives it its bay and an EMPTY gripper, and IDLE or HELD. That a
holder found in 48–79 has its tenure timer started again from the tenure value of its grant, not from one loaded since
(R96, R110), is the model's reading (log 65). R228: either report is the accessor's answer in RESTARTING, and with both answers the library is RUNNING; in any
other state it answers nothing. R79: a mount on its way to its drive, whose task waits on the accessor, is settled by what the
gripper holds: its own volume is there (where it was recorded at its source, the pick is taken as completed and the source
becomes EMPTY) and the leg goes on from the gripper, through a handoff slot where the accessor cannot reach the drive; with
the gripper EMPTY or another reel in it, the leg is queued again from the source, or a volume believed in the gripper is
UNKNOWN and the task waits on a LOCATE prompt. A task with a pending final status gets the RETURN plan, home from the gripper. One
whose pick was to identify its reel is settled by the gripper alone: EMPTY, it is queued again; a reel is taken as its
reading (an UNREADABLE one goes to its service slot for a FOREIGN prompt). R77, R108: another reel, and any reel where no task waits, draws a RECOVERY
request, and a volume of the table is located in the gripper, a cell it had becoming EMPTY. That a task keeps what it has
reserved through this is the model's reading (log 68). -/
def Obligations.RecoveredFindsTheAccessor : Prop :=
  ∀ (a : Acc) (f : InFlight) (clear : Bool) (n : Nat) (bay : Byte) (g : Reading) (s : State), s.free →
    (s.plant.acc a).step = some f → f.kind = .recover clear n → (s.plant.acc a).leg = none →
    (((a = .A ∧ 79 < bay.toNat) ∨ (a = .B ∧ (bay.toNat < 48 ∨ 127 < bay.toNat))
        ∨ (clear = true ∧ 48 ≤ bay.toNat ∧ bay.toNat ≤ 79)) →
      ∃ y : Plant, exec (.recovered a f.tag bay g) s = .next { s with plant := y.settle s.env }
        ∧ (y.acc a).state = .faulted ∧ (y.acc a).lastFault = some .position ∧ (y.acc a).bay = none
        ∧ (y.acc a).step = none ∧ s.plant.mgu.answeredBy a y.mgu)
    ∧ (((a = .A ∧ bay.toNat ≤ 79) ∨ (a = .B ∧ 48 ≤ bay.toNat ∧ bay.toNat ≤ 127)) →
      ¬(clear = true ∧ 48 ≤ bay.toNat ∧ bay.toNat ≤ 79) → g = .empty →
      (∀ t k, s.plant.task? t = some k → k.faulted ≠ some a) → s.plant.volAt? (.gripper a) = none →
      ∃ y : Plant, exec (.recovered a f.tag bay g) s = .next { s with plant := y.settle s.env }
        ∧ (y.acc a).state = (if s.env.held then .held else .idle) ∧ (y.acc a).bay = some bay.toNat
        ∧ (y.acc a).gripper = .empty ∧ (y.acc a).step = none ∧ y.ltu = s.plant.ltu ∧ y.tcu.tasks = s.plant.tcu.tasks
        ∧ s.plant.mgu.answeredBy a y.mgu ∧ (s.plant.mgu.lib ≠ .restarting → y.tcu = s.plant.tcu)
        ∧ (s.plant.mou.holder = some a → (bay.toNat < 48 ∨ 79 < bay.toNat) → y.mou.holder = s.plant.mou.claimant)
        ∧ (s.plant.mou.holder = some a → 48 ≤ bay.toNat → bay.toNat ≤ 79 → y.mou.holder = some a
            ∧ y.mou.tenureEnd = some (s.env.tick + ticks s.plant.mou.tenure) ∧ y.mou.expired = s.plant.mou.expired
            ∧ y.mou.tenure = s.plant.mou.tenure)
        ∧ (s.plant.mou.holder ≠ some a → y.mou.holder = s.plant.mou.holder))
    ∧ (((a = .A ∧ bay.toNat ≤ 79) ∨ (a = .B ∧ 48 ≤ bay.toNat ∧ bay.toNat ≤ 127)) →
      ¬(clear = true ∧ 48 ≤ bay.toNat ∧ bay.toNat ≤ 79) → (∀ l ∈ s.plant.mou.queue, l.src ≠ .gripper a) →
      s.plant.pru.table.length < 32 → s.plant.pru.later = none → ∀ found : Plant → Prop,
      (found = fun y => exec (.recovered a f.tag bay g) s = .next { s with plant := y.settle s.env }
        ∧ (y.acc a).state = (if s.env.held then .held else .idle) ∧ (y.acc a).bay = some bay.toNat ∧ (y.acc a).step = none) →
      ((∀ t k, s.plant.task? t = some k → k.faulted ≠ some a ∧ k.holding ≠ some a) →
        (∀ w ∈ s.plant.ltu.volumes, w.loc = .gripper a → g = .serial w.serial) →
        ((g = .unreadable ∨ ∃ z, g = .serial z ∧ s.plant.vol? z = none) →
          ∃ y, found y ∧ (y.acc a).gripper = .unknownReel ∧ Request.gripper a ∈ y.tcu.requests
            ∧ y.tcu.tasks = s.plant.tcu.tasks ∧ y.ltu = s.plant.ltu)
        ∧ ∀ z w, g = .serial z → s.plant.vol? z = some w → w.bound = none →
          ∃ y u, found y ∧ (y.acc a).gripper = .known z ∧ Request.gripper a ∈ y.tcu.requests
            ∧ ((∀ n, w.loc ≠ .service n) → (∀ h, w.loc ≠ .handoff h) → y.tcu.tasks = s.plant.tcu.tasks)
            ∧ y.vol? z = some u ∧ u.loc = .gripper a ∧ u.bound = none
            ∧ ∀ c, w.loc = .cell c → (s.plant.cell c).occ = .occupied z → (y.cell c).occ = .empty)
      ∧ ∀ (t : TaskNo) (k : Task), s.plant.task? t = some k → k.faulted = some a →
        (∀ u j, s.plant.task? u = some j → j.waiter = none ∧ (u ≠ t → j.faulted ≠ some a ∧ j.holding ≠ some a)) →
        ∀ went : Plant → Task → Prop, (went = fun y j => found y ∧ y.task? t = some j ∧ j.faulted = none
          ∧ (∀ u, u ≠ t → y.task? u = s.plant.task? u) ∧ y.adu = s.plant.adu) →
        ∀ leg : Plant → Location → Option Location → Option Location → Prop,
        (leg = fun y src dst onward => ∃ l ∈ y.mou.queue, l.owner = .task t ∧ l.src = src ∧ l.dst = dst
          ∧ l.onward = onward ∧ (l.picked = true ↔ src = .gripper a)) →
        (∀ (q : Serial) (v : Volume), k.serial = some q → s.plant.vol? q = some v →
          (∀ w ∈ s.plant.ltu.volumes, w.loc = .gripper a → w.serial = q) →
          (∀ d, k.pending = none → (k.kind = .mount ∨ k.kind = .mountScratch) → k.state ≠ .demounting →
            k.work = some .toDrive → k.drive = some d → (s.plant.drive d).state = .reserved →
            (g = .serial q →
              (capable a (.gripper a) (.drive d) = true →
                (v.loc = .gripper a → ∃ y j, went y j ∧ j.state = .moving ∧ j.prompt = none
                  ∧ leg y (.gripper a) (some (.drive d)) none ∧ y.ltu = s.plant.ltu ∧ y.dru = s.plant.dru)
                ∧ (∀ c, v.loc = .cell c → (s.plant.cell c).occ = .occupied q → ∃ y j w, went y j ∧ j.state = .moving
                  ∧ leg y (.gripper a) (some (.drive d)) none ∧ y.vol? q = some w ∧ w.loc = .gripper a
                  ∧ (y.cell c).occ = .empty ∧ y.dru = s.plant.dru)
                ∧ ∀ n, v.loc = .service n → (s.plant.service n).state = .occupied → ∃ y j w, went y j ∧ j.state = .moving
                  ∧ leg y (.gripper a) (some (.drive d)) none ∧ y.vol? q = some w ∧ w.loc = .gripper a
                  ∧ y.service n = Slot.clear ∧ y.dru = s.plant.dru)
              ∧ ∀ h, v.loc = .gripper a → capable .A (.gripper a) (.drive d) = false →
                capable .B (.gripper a) (.drive d) = false → k.handoff = none → s.plant.emptyHandoff = some h →
                ∃ y j, went y j ∧ j.state = .moving ∧ j.handoff = some h ∧ y.handoff h = Slot.reserve t
                  ∧ leg y (.gripper a) (some (.handoff h)) (some (.drive d)) ∧ y.ltu = s.plant.ltu)
            ∧ ∀ other : Prop, (other = (g = .unreadable ∨ ∃ z, g = .serial z ∧ z ≠ q ∧ s.plant.vol? z = none)) →
              (g = .empty ∨ other) →
              (∀ c, v.loc = .cell c → capable a (.cell c) (.drive d) = true → ∃ y j, went y j ∧ j.state = .moving
                ∧ leg y (.cell c) (some (.drive d)) none ∧ y.ltu = s.plant.ltu ∧ y.dru = s.plant.dru
                ∧ (other → Request.gripper a ∈ y.tcu.requests))
              ∧ (v.loc = .gripper a → ∃ y j w p, went y j ∧ y.vol? q = some w ∧ w.loc = .unknown ∧ j.state = .opwait
                ∧ j.prompt = some p.number ∧ p ∈ y.pru.table ∧ p.kind = .locate ∧ p.owner = .task t
                ∧ p.params = { vol := some q, drive := some d } ∧ (other → Request.gripper a ∈ y.tcu.requests)))
          ∧ ∀ p c, k.pending = some p → g = .serial q → v.loc = .gripper a → v.cls = .resident → k.cell = none →
            v.home = some c → (s.plant.cell c).occ = .empty → capable a (.gripper a) (.cell c) = true →
            (∀ d e, (s.plant.drive d).bound = some t → (s.plant.drive e).bound = some t → d = e) →
            ∃ y j, went y j ∧ j.pending = some p ∧ j.cell = some c ∧ (y.cell c).occ = .reserved (some q) t
              ∧ leg y (.gripper a) (some (.cell c)) none ∧ ∀ d, (y.drive d).bound ≠ some t)
        ∧ ∀ (h : Fin 4) (n : Fin 8), k.serial = none → k.source = some (.handoff h) → (s.plant.handoff h).state = .occupied →
          k.work = some .identify → k.pending = none → k.state ≠ .demounting → k.service = some n →
          s.plant.service n = Slot.reserve t → (∀ w ∈ s.plant.ltu.volumes, w.loc ≠ .gripper a ∧ w.loc ≠ .handoff h) →
          (g = .empty → ∃ y j, went y j ∧ leg y (.handoff h) none none ∧ y.ltu = s.plant.ltu)
          ∧ (g = .unreadable → capable a (.gripper a) (.service n) = true → ∃ y j, went y j ∧ j.source = some (.gripper a)
              ∧ y.handoff h = Slot.clear ∧ leg y (.gripper a) (some (.service n)) none ∧ y.ltu = s.plant.ltu))

/-- R91: the leg queue is ordered by class, RECOVERY, MOUNT, DEMOUNT, SERVICE, REFILE, AUDIT, of audit legs list 1's before
list 2's, then by age, the longer in the queue first, and of legs that joined at one tick by the order of their numbers,
which are given in the order of joining. A new leg takes the next number and the present tick; it, and a suspended
audit leg, which keeps both, take the place that order gives them, every other leg standing as it was. From every state whose queue is in
order, with the legs told apart by their numbers and none older than 2^48 − 2 ticks (a Tick is 48 bits wide, R171), every
command leaves the queue in order. -/
def Obligations.LegsStandByClassThenAge : Prop :=
  (LegClass.recovery.rank < LegClass.mount.rank ∧ LegClass.mount.rank < LegClass.demount.rank
    ∧ LegClass.demount.rank < LegClass.service.rank ∧ LegClass.service.rank < LegClass.refile.rank
    ∧ LegClass.refile.rank < LegClass.audit.rank)
  ∧ (∀ o : Owner, o.rank = if o = .audit .two then 1 else 0)
  ∧ (∀ (now : Tick) (l m : Leg), ∀ older : Prop,
    (older = (elapsed m.joined now < elapsed l.joined now ∨ (elapsed m.joined now = elapsed l.joined now ∧ l.id < m.id))) →
    (l.before now m = true ↔ l.cls.rank < m.cls.rank
      ∨ (l.cls = m.cls ∧ (l.owner.rank < m.owner.rank ∨ (l.owner.rank = m.owner.rank ∧ older)))))
  ∧ (∀ (e : Env) (l : Leg) (x : Plant), (∀ g ∈ x.mou.queue, g.id < x.mou.nextLeg) → ∃ u v, x.mou.queue = u ++ v
    ∧ x.queueLeg e l = { x with mou := { x.mou with
        nextLeg := x.mou.nextLeg + 1, queue := u ++ { l with id := x.mou.nextLeg, joined := e.tick } :: v } }
    ∧ (x.queueInOrder e → (x.queueLeg e l).queueInOrder e))
  ∧ (∀ (e : Env) (l : Leg) (x : Plant), (∀ g ∈ x.mou.queue, g.id ≠ l.id) → ∃ u v, x.mou.queue = u ++ v
    ∧ x.joinQueue e l = { x with mou := { x.mou with queue := u ++ l :: v } }
    ∧ (x.queueInOrder e → (x.joinQueue e l).queueInOrder e))
  ∧ ∀ (c : Instr) (s t : State), s.plant.legsOk → s.plant.queueInOrder s.env →
    (∀ g ∈ s.plant.mou.queue, elapsed g.joined s.env.tick < 281474976710655) → exec c s = .next t →
    t.plant.queueInOrder t.env

/-- What an accessor with no step in flight does next, but for the steps of a leg (StepsAreSentAndTravelsArrive). R93: an
IDLE one takes the first leg in queue order that it may take: one it is capable of, from its own gripper where that is not
EMPTY, and wholly outside 48–79 while it yields (a destination not yet decided counts as inside: the model's reading,
log 44); of the two, the one that entered IDLE first takes first. R98: with none to take, a holder in 48–79 starts a RETREAT to
bay 47 or 80, and an accessor elsewhere without the grant a PARK to bay 0 or 127; the leg comes before the errand by the
model's choice (log 72). R95, R97: a yielding holder outside 48–79 releases the grant, and the claimant is granted it in
the same action, its tenure timer started afresh. R100, R101: under a hold an accessor with no step in flight is HELD
whatever it was, and the end of an action sends it nothing; a RECOVER kept unsent goes out when the hold ceases. R94: that
an accessor in 48–79, on its way into it, or recovering there holds the grant is kept by every command. R96: the expiry of
the tenure timer stops it and sets the expired mark, and the accessors settle after it; that before its tick, and with the
timer stopped, it does nothing is the model's choice (log 22). R92: a DEMOUNT leg that has waited 600 ticks in the queue
is promoted: it stands in the queue with class MOUNT, every other leg standing as it was; that with none due the command
changes nothing, and that of several due the first in queue order is promoted, are the model's choices (logs 22
and 50). -/
def Obligations.LegsAreTakenInOrderAndTheZoneIsShared : Prop :=
  ((∀ (a : Acc) (l : Leg) (x : Plant) (out : Option Location → Prop),
    (out = fun d => ∃ c b, d = some c ∧ c.bay (fun g => (x.acc g).bay) = some b ∧ (b < 48 ∨ 79 < b)) →
    (x.mayTake a l = true ↔ (l.capableFor a = true ∧ ((x.acc a).gripper = .empty ∨ l.src = .gripper a)
      ∧ (x.yielding a = true → (∀ o, l.owner = .audit o → l.bay < 48 ∨ 79 < l.bay)
          ∧ ((∀ o, l.owner ≠ .audit o) → out (some l.src) ∧ out l.dst)))))
    ∧ (∀ (a : Acc) (x : Plant), x.yielding a = true ↔ (x.mou.holder = some a ∧ x.mou.expired = true
        ∧ x.mou.claimant = some a.other
        ∧ ((x.acc a).state = .idle ∨ (x.acc a).state = .stepping ∨ (x.acc a).state = .held)))
    ∧ ∀ x : Plant, (x.acc .A).state ≠ .recovering → (x.acc .B).state ≠ .recovering → x.firstActor = x.mou.firstIdle)
  ∧ (∀ (e : Env) (a : Acc) (x : Plant), (x.acc a).step = none → ∀ within : Prop,
    (within = (x.yielding a = true → ∀ b, (x.acc a).bay = some b → 48 ≤ b ∧ b ≤ 79)) →
    (e.held = false → (x.acc a).state = .idle → within →
      (∀ (u v : List Leg) (l : Leg), x.mou.queue = u ++ l :: v → x.mayTake a l = true → (∀ m ∈ u, x.mayTake a m = false) →
        (∀ m ∈ u ++ v, m.id ≠ l.id) →
        ∃ y, x.act e a = some y ∧ y.mou.queue = u ++ v
          ∧ y.acc a = { x.acc a with state := .stepping, leg := some l, ending := false }
          ∧ y.acc a.other = x.acc a.other ∧ y.ltu = x.ltu ∧ y.tcu = x.tcu ∧ y.dru = x.dru ∧ y.out = x.out
          ∧ ∀ o, l.owner = .audit o → (x.list o).state = .suspended → y.list o = { x.list o with state := .running })
      ∧ ((∀ l ∈ x.mou.queue, x.mayTake a l = false) →
        ((x.acc a).bay = none → x.act e a = none)
        ∧ ∀ b (sent : Errand → Nat → Plant), (x.acc a).bay = some b →
          (sent = fun r n => ((x.updAcc a fun c => { c with state := .stepping, errand := some r })).sendStep e a (.travel n)) →
          (x.mou.holder = some a → 48 ≤ b → b ≤ 79 → x.act e a = some (sent .retreat (if a = .A then 47 else 80)))
          ∧ (x.mou.holder = some a → (b < 48 ∨ 79 < b) → x.act e a = none)
          ∧ (x.mou.holder ≠ some a → (b < 48 ∨ 79 < b) → b ≠ (if a = .A then 0 else 127) →
              x.act e a = some (sent .park (if a = .A then 0 else 127)))
          ∧ (x.mou.holder ≠ some a → ((48 ≤ b ∧ b ≤ 79) ∨ b = if a = .A then 0 else 127) → x.act e a = none)))
    ∧ (∀ b, x.yielding a = true → (x.acc a).bay = some b → (b < 48 ∨ 79 < b) →
      x.act e a = some { x with mou := { x.mou with
        holder := some a.other, claimant := none, tenureEnd := some (e.tick + ticks e.set.tenure),
        tenure := e.set.tenure, expired := false } })
    ∧ (e.held = true → within → ((x.acc a).state = .idle ∨ (x.acc a).state = .stepping) →
        x.act e a = some (x.updAcc a fun c => { c with state := .held }))
    ∧ (e.held = false → (x.acc a).state = .recovering → (x.acc a).recoverDue = true →
        x.act e a = some ((x.updAcc a fun c => { c with state := .recovering, recoverDue := false }).sendStep e a
          (.recover (decide (x.mou.holder ≠ some a)) (if a = .A then 47 else 80))))
    ∧ (((x.acc a).state = .unknown ∨ (x.acc a).state = .faulted) → x.act e a = none))
  ∧ (∀ (e : Env) (a : Acc) (x : Plant), ∀ y, y = x.settle e → e.held = true → (x.acc a).step = none →
    (y.acc a).step = none
      ∧ (((x.acc a).state = .idle ∨ (x.acc a).state = .stepping ∨ (x.acc a).state = .held) → (y.acc a).state = .held))
  ∧ (∀ (c : Instr) (s t : State), s.plant.zoneOk → exec c s = .next t → t.plant.zoneOk)
  ∧ (∀ s : State, s.free →
    (∀ t, s.plant.mou.tenureEnd = some t → reached s.env.tick t = true →
      exec .tenureExpiry s
        = .next (State.settled { s with plant := { s.plant with mou := { s.plant.mou with tenureEnd := none, expired := true } } }))
    ∧ (∀ t, s.plant.mou.tenureEnd = some t → reached s.env.tick t = false → exec .tenureExpiry s = .next s)
    ∧ (s.plant.mou.tenureEnd = none → exec .tenureExpiry s = .next s))
  ∧ (∀ s : State, s.free →
    ((∀ l ∈ s.plant.mou.queue, l.cls = .demount → (s.env.tick - l.joined).toNat < 600) → exec .legPromotion s = .next s)
    ∧ ∀ (x y : List Leg) (l : Leg), s.plant.mou.queue = x ++ l :: y → l.cls = .demount →
      600 ≤ (s.env.tick - l.joined).toNat →
      (∀ m ∈ x, ¬(m.cls = .demount ∧ 600 ≤ (s.env.tick - m.joined).toNat)) → (∀ m ∈ x ++ y, m.id ≠ l.id) →
      ∃ u v, x ++ y = u ++ v
        ∧ exec .legPromotion s = .next { s with plant := { s.plant with mou :=
            { s.plant.mou with queue := u ++ { l with cls := .mount } :: v } } }
        ∧ (∀ w ∈ u, Leg.before s.env.tick { l with cls := .mount } w = false)
        ∧ ∀ w, v.head? = some w → Leg.before s.env.tick { l with cls := .mount } w = true)

/-! ### Management -/

/-- R216, R217: a management command other than EJECT (whose own checks stand in EnterAndEjectMakeTasks) from a path
outside the mask is answered NOT PERMITTED, one taken in STARTING NOT READY, one malformed in length BAD VALUE, in that
order and with no other effect (that LIBRARY START and RESTART of the wrong length are so answered before the library
state is judged is the model's reading, log 27); a code that names no command is UNKNOWN COMMAND (whatever its length: the model's
reading, log 13). The NOT PERMITTED event is the reply and nothing else; that from a path inside the mask it is no such
event and changes nothing is the model's choice (log 79). -/
def Obligations.ManagementCommandsAreAdmittedInOrder : Prop :=
  (∀ (c : Instr) (h : Hdr) (s : State), managementOf c = some h → s.free →
    (s.env.set.mgmtMask.getLsbD h.path.val = false → exec c s = .next (s.replied h .notPermitted .nothing))
    ∧ (s.env.set.mgmtMask.getLsbD h.path.val = true →
      (s.plant.mgu.lib = .starting → exec c s = .next (s.replied h .notReady .nothing))
      ∧ (s.plant.mgu.lib ≠ .starting → h.sized = false → exec c s = .next (s.replied h .badValue .nothing))))
  ∧ (∀ (h : Hdr) (code : Byte) (s : State), s.free → (code = 0 ∨ 0x3A < code.toNat) →
    (s.env.set.mgmtMask.getLsbD h.path.val = false →
      exec (.unknownCommand h code) s = .next (s.replied h .notPermitted .nothing))
    ∧ (s.env.set.mgmtMask.getLsbD h.path.val = true →
      (s.plant.mgu.lib = .starting → exec (.unknownCommand h code) s = .next (s.replied h .notReady .nothing))
      ∧ (s.plant.mgu.lib ≠ .starting → exec (.unknownCommand h code) s = .next (s.replied h .unknownCommand .nothing))))
  ∧ ∀ (h : Hdr) (code : Byte) (s : State), s.free →
    (s.env.set.mgmtMask.getLsbD h.path.val = false →
      exec (.notPermitted h code) s = .next (s.replied h .notPermitted .nothing))
    ∧ (s.env.set.mgmtMask.getLsbD h.path.val = true → exec (.notPermitted h code) s = .next s)

/-- R110, R111, R118, R168, R218: the reads of the task table, the accessors, the leg queue, the drives and the Prompt
Unit show the entry asked for as it stands (a task with the numbers of its legs and, by the model's reading of log 23, of the
wrong reel's carry its record owns while it lives, those of the queue before those in hand), answer END or BAD VALUE where there is none, and change nothing else.
That a collection byte above 1 of READ PROMPT is BAD VALUE is the model's reading (log 52). -/
def Obligations.UnitReadsShowTheirEntries : Prop :=
  ∀ (h : Hdr) (b : Byte) (s : State), s.manages h →
    (∀ t : TaskNo, b.toNat = t.val →
      (s.plant.task? t = none → exec (.readTask h b) s = .next (s.replied h .data .free))
      ∧ ∀ k, s.plant.task? t = some k → exec (.readTask h b) s = .next (s.replied h .data
          (.task k (((s.plant.mou.queue ++ s.plant.mou.accA.leg.toList ++ s.plant.mou.accB.leg.toList).filter fun l =>
            l.owner = .task t ∨ l.owner = .found t true).map fun l => l.id))))
    ∧ (47 < b.toNat → exec (.readTask h b) s = .next (s.replied h .badValue .nothing))
    ∧ (∀ a, ((b = 0 ∧ a = .A) ∨ (b = 1 ∧ a = .B)) →
      ∃ left, exec (.readAccessor h b) s = .next (s.replied h .data
          (.accessor (s.plant.acc a) (decide (s.plant.mou.holder = some a)) (decide (s.plant.mou.claimant = some a))
            s.plant.mou.holder s.plant.mou.claimant left s.plant.mou.expired s.env.hold1 s.env.hold2 s.env.door
            s.plant.mou.queue.length))
        ∧ (s.plant.mou.tenureEnd = none → left = none)
        ∧ ∀ t, s.plant.mou.tenureEnd = some t → reached s.env.tick t = false → left = some (t - s.env.tick).toNat)
    ∧ (1 < b.toNat → exec (.readAccessor h b) s = .next (s.replied h .badValue .nothing))
    ∧ (∀ l, s.plant.mou.queue[b.toNat]? = some l → exec (.readLeg h b) s = .next (s.replied h .data (.leg l)))
    ∧ (s.plant.mou.queue.length ≤ b.toNat →
        exec (.readLeg h b) s = .next (s.replied h .ends (.length 1 s.plant.mou.queue.length)))
    ∧ (∀ d : DriveNo, b.toNat = d.val → exec (.readDrive h b) s = .next (s.replied h .data (.drive (s.plant.drive d))))
    ∧ (31 < b.toNat → exec (.readDrive h b) s = .next (s.replied h .badValue .nothing))
    ∧ (∀ p, (ranked s.plant.pru.table)[b.toNat]? = some p →
        exec (.readPrompt h 0 b) s = .next (s.replied h .data (.prompt p)))
    ∧ (∀ r, s.plant.pru.backlog[b.toNat]? = some r →
        exec (.readPrompt h 1 b) s = .next (s.replied h .data (.backlogged r)))
    ∧ (((ranked s.plant.pru.table)[b.toNat]? = none → exec (.readPrompt h 0 b) s
        = .next (s.replied h .ends (.promptEnd s.plant.pru.table.length s.plant.pru.backlog.length))))
    ∧ (s.plant.pru.backlog.length ≤ b.toNat → exec (.readPrompt h 1 b) s
        = .next (s.replied h .ends (.promptEnd s.plant.pru.table.length s.plant.pru.backlog.length)))
    ∧ (∀ c, 1 < c.toNat → exec (.readPrompt h c b) s = .next (s.replied h .badValue .nothing))
    ∧ exec (.readConsole h 1) s = .next (s.replied h .data (.console s.plant.pru.con1 s.env.sw1))
    ∧ exec (.readConsole h 2) s = .next (s.replied h .data (.console s.plant.pru.con2 s.env.sw2))
    ∧ ((b = 0 ∨ 2 < b.toNat) → exec (.readConsole h b) s = .next (s.replied h .badValue .nothing))
    ∧ (∀ n : Fin 15, b.toNat = n.val →
        exec (.readTemplate h b) s = .next (s.replied h .data (.template (s.env.set.templates.get n))))
    ∧ (14 < b.toNat → exec (.readTemplate h b) s = .next (s.replied h .badValue .nothing))
    ∧ (∀ n : Fin 14, b.toNat = n.val →
        exec (.readPromptTimes h b) s = .next (s.replied h .data (.times (s.env.set.times.get n))))
    ∧ (13 < b.toNat → exec (.readPromptTimes h b) s = .next (s.replied h .badValue .nothing))

/-- R140, R142, R172–R174, R179, R189, R191, R209, R214, R218: the reads of the fence, the clock, the accounting
tables, the sweep tables, the link counters, the library state and the flags show them as they stand, answer END or
BAD VALUE where the entry asked for is none, and change nothing else. -/
def Obligations.SettingAndBufferReadsShowTheirEntries : Prop :=
  ∀ (h : Hdr) (b : Byte) (s : State), s.manages h →
    (∃ left, exec (.readFence h) s = .next (s.replied h .data (.fence s.env.fence.working left))
      ∧ (s.env.fence.persist = none → left = none)
      ∧ ∀ p, s.env.fence.persist = some p → reached s.env.tick p.done = false →
          left = some (p.done - s.env.tick).toNat)
    ∧ exec (.readWearLimits h) s = .next (s.replied h .data (.wearLimits s.env.set.mountLimit s.env.set.failLimit))
    ∧ exec (.readClock h) s
        = .next (s.replied h .data (.clock s.env.tick s.env.minute s.env.sub s.env.set.prescale s.env.set.divisor))
    ∧ (∀ c : Fin 8, b.toNat = c.val → exec (.readRate h b) s = .next (s.replied h .data (.rate (s.env.set.rates.get c))))
    ∧ (7 < b.toNat → exec (.readRate h b) s = .next (s.replied h .badValue .nothing))
    ∧ exec (.readShifts h) s = .next (s.replied h .data (.shifts s.env.set.shifts))
    ∧ (∀ n : Fin 256, b.toNat = n.val →
        exec (.readAccount h b) s = .next (s.replied h .data (.account (s.acu.accounts.get n))))
    ∧ (∃ left, exec (.readDrain h) s = .next (s.replied h .data
          (.drain s.env.set.trigger s.env.set.quiet s.acu.buffer.length s.acu.nextSeq left))
      ∧ (s.acu.quietEnd = none → left = none)
      ∧ ∀ t, s.acu.quietEnd = some t → reached s.env.tick t = false → left = some (t - s.env.tick).toNat)
    ∧ (∀ u, s.acu.buffer[b.toNat]? = some u →
        exec (.readRecord h b) s = .next (s.replied h .data (.usageAt u s.acu.buffer.length)))
    ∧ (s.acu.buffer.length ≤ b.toNat →
        exec (.readRecord h b) s = .next (s.replied h .ends (.length 1 s.acu.buffer.length)))
    ∧ (∀ n : Fin 64, b.toNat = n.val →
        exec (.readSweepEntry h b) s = .next (s.replied h .data (.sweepEntry (s.env.set.sweep.get n))))
    ∧ (63 < b.toNat → exec (.readSweepEntry h b) s = .next (s.replied h .badValue .nothing))
    ∧ exec (.readSweepList h 1) s = .next (s.replied h .data (.sweepList s.plant.adu.list1 s.env.set.l2))
    ∧ exec (.readSweepList h 2) s = .next (s.replied h .data (.sweepList s.plant.adu.list2 s.env.set.l2))
    ∧ ((b = 0 ∨ 2 < b.toNat) → exec (.readSweepList h b) s = .next (s.replied h .badValue .nothing))
    ∧ (∃ left, exec (.readSweepTimer h) s = .next (s.replied h .data (.sweepTimer s.env.set.auditInterval left))
      ∧ (s.plant.adu.timer = none → left = none)
      ∧ ∀ t, s.plant.adu.timer = some t → reached s.env.tick t = false → left = some (t - s.env.tick).toNat)
    ∧ exec (.readLink h) s = .next (s.replied h .data (.link s.env.linkC s.env.linkM))
    ∧ exec (.readState h) s = .next (s.replied h .data (.state s.plant.mgu.lib s.plant.mgu.ansA s.plant.mgu.ansB
        s.plant.mgu.outcome s.env.set.mgmtMask s.env.set.noticeMask s.plant.mgu.gen))
    ∧ exec (.readFlags h) s = .next (s.replied h .data (.flags s.plant.mgu.flags s.plant.mgu.gen))

/-- R219, R221: setting a flag steps the generation counter (from 4,294,967,295 to 1), stamps the flag with it, and
sends a NOTICE with the flag, its generation and all flags then set to every path of the mask, lowest first (the
order of paths is the model's, log 14), unless the flag's mark is clear or the library is STARTING; every other flag
keeps its mark and generation. R220: CLEAR FLAGS refuses a pair that names no flag, a flag named twice and a
malformed field BAD VALUE, clearing nothing; otherwise each flag that is set at the generation given becomes clear
and keeps its generation, every other flag and the counter stay, and ACCEPTED carries the flags cleared and the
flags still set. -/
def Obligations.FlagsAreSetAndClearedByGeneration : Prop :=
  (∀ (e : Env) (f : EventFlag) (x : Plant),
    (x.setFlag e f).mgu.gen = (if x.mgu.gen = 4294967295 then 1 else x.mgu.gen + 1)
    ∧ (x.setFlag e f).mgu.flags.get f.index = { isSet := true, gen := (x.setFlag e f).mgu.gen }
    ∧ (∀ i, i ≠ f.index → (x.setFlag e f).mgu.flags.get i = x.mgu.flags.get i)
    ∧ (x.setFlag e f).mgu.lib = x.mgu.lib
    ∧ ((e.set.noticeMask.getLsbD f.index.val = false ∨ x.mgu.lib = .starting) → (x.setFlag e f).out = x.out)
    ∧ (e.set.noticeMask.getLsbD f.index.val = true → x.mgu.lib ≠ .starting →
        (x.setFlag e f).out.m = x.out.m
        ∧ (x.setFlag e f).out.c = x.out.c ++ ((List.finRange 4).filter fun p => e.set.mgmtMask.getLsbD p.val).map
            (fun p => CFrame.notice p f (x.setFlag e f).mgu.gen (flagSet (x.setFlag e f).mgu.flags)))
    ∧ (∀ i : Fin 14, (flagSet x.mgu.flags).getLsbD i.val = (x.mgu.flags.get i).isSet)
    ∧ (x.setFlag e f).ltu = x.ltu ∧ (x.setFlag e f).tcu = x.tcu ∧ (x.setFlag e f).mou = x.mou
    ∧ (x.setFlag e f).dru = x.dru ∧ (x.setFlag e f).pru = x.pru ∧ (x.setFlag e f).adu = x.adu)
  ∧ ((∀ (h : Hdr) (ps : List (Byte × BitVec 32)) (s : State), s.manages h →
    (((∃ p ∈ ps, 13 < p.1.toNat) ∨ ¬(ps.map fun p => p.1).Nodup) →
      exec (.clearFlags h ps) s = .next (s.replied h .badValue .nothing))
    ∧ ((∀ p ∈ ps, p.1.toNat ≤ 13) → (ps.map fun p => p.1).Nodup →
      ∃ (v : Vector FlagRec 14) (gone left : BitVec 14),
        exec (.clearFlags h ps) s = .next (({ s with plant := { s.plant with mgu := { s.plant.mgu with flags := v } } } :
          State).replied h .accepted (.flagsCleared gone left))
        ∧ (∀ i : Fin 14,
            ((s.plant.mgu.flags.get i).isSet = true ∧ (∃ p ∈ ps, p.1.toNat = i.val ∧ p.2.toNat = (s.plant.mgu.flags.get i).gen)) →
            v.get i = { isSet := false, gen := (s.plant.mgu.flags.get i).gen } ∧ gone.getLsbD i.val = true
              ∧ left.getLsbD i.val = false)
        ∧ ∀ i : Fin 14,
            ¬((s.plant.mgu.flags.get i).isSet = true ∧ (∃ p ∈ ps, p.1.toNat = i.val ∧ p.2.toNat = (s.plant.mgu.flags.get i).gen)) →
            v.get i = s.plant.mgu.flags.get i ∧ gone.getLsbD i.val = false
              ∧ left.getLsbD i.val = (s.plant.mgu.flags.get i).isSet))
  ∧ ∀ (h : Hdr) (s : State), s.free → s.env.set.mgmtMask.getLsbD h.path.val = true → s.plant.mgu.lib ≠ .starting →
    h.sized = false → ∀ ps, exec (.clearFlags h ps) s = .next (s.replied h .badValue .nothing))

/-- R214: a malformed frame adds one to its link's counter, saturating at 65,535, and sets LINK-ERROR where it is
clear, and does nothing more; CLEAR LINK COUNTERS sets the counters it names to 0 (bytes 00h C, 01h M, 02h BOTH),
and any other name is BAD VALUE; READ LINK shows both counters; they are 0 after power-on and hard reset, and a warm
restart keeps them. -/
def Obligations.LinkErrorsAreCountedAndCleared : Prop :=
  ((∀ (l : Link) (bs : List Byte) (s : State), s.free → judgeFrame l bs = .malformed →
    ∃ e : Env, e = { s.env with linkC := if l = .C then min 65535 (s.env.linkC + 1) else s.env.linkC,
                                linkM := if l = .M then min 65535 (s.env.linkM + 1) else s.env.linkM }
      ∧ ((s.plant.mgu.flags.get EventFlag.linkError.index).isSet = true →
          exec (.malformedFrame l bs) s = .next { s with env := e })
      ∧ ((s.plant.mgu.flags.get EventFlag.linkError.index).isSet = false →
          exec (.malformedFrame l bs) s = .next { s with env := e, plant := s.plant.setFlag s.env .linkError }))
  ∧ ∀ (h : Hdr) (n : Byte) (s : State), s.manages h →
    (n.toNat ≤ 2 → exec (.clearLinkCounters h n) s = .next (({ s with env :=
      { s.env with linkC := if n = 1 then s.env.linkC else 0, linkM := if n = 0 then s.env.linkM else 0 } } : State).replied
        h .accepted .nothing))
    ∧ (2 < n.toNat → exec (.clearLinkCounters h n) s = .next (s.replied h .badValue .nothing)))
  ∧ (∀ (h : Hdr) (s : State), s.manages h →
    exec (.readLink h) s = .next (s.replied h .data (.link s.env.linkC s.env.linkM)))
  ∧ (∀ (b : Bool) (s : State), ∃ t u, exec (.powerOn b) s = .next t ∧ exec (.hardReset b) s = .next u
      ∧ t.env.linkC = 0 ∧ t.env.linkM = 0 ∧ u.env.linkC = 0 ∧ u.env.linkM = 0)
  ∧ ∀ (h : Hdr) (s t : State), exec (.restart h) s = .next t → t.env.linkC = s.env.linkC ∧ t.env.linkM = s.env.linkM

/-- R101, R107, R226: LIBRARY START in LOADING makes the library RUNNING, sends RECOVER to both accessors (in mode CLEAR
where neither holds the zone; under a hold both are kept unsent), which are RECOVERING, and replies ACCEPTED; in RUNNING
and RESTARTING it is WRONG STATE. RESTART in LOADING is WRONG STATE; in RUNNING or RESTARTING it is one action that makes
the library RESTARTING, neither accessor having answered, and ends with the reply ACCEPTED: no setting, no switch, no hold
and nothing of the fence or the clock changes; what each block keeps and gives up is R26 (the volume table, the cells, the
racks, the pool), R34 (the queues and the paths), R54 (the tasks and the requests), R113 (the accessors, with RECOVER sent
to both or kept unsent, R101), R132 (the drives), R170 (the prompts), R192 (the closes of the mounted tasks) and R210 (the
lists, the audit interval timer running on). The order of the action and its statuses, and which of the accessors counts
as first in IDLE, are the model's (logs 26 and 59). -/
def Obligations.LibraryStartAndRestart : Prop :=
  (∀ (h : Hdr) (s : State), s.manages h →
    ((s.plant.mgu.lib = .running ∨ s.plant.mgu.lib = .restarting) →
      exec (.libraryStart h) s = .next (s.replied h .wrongState .nothing))
    ∧ (s.plant.mgu.lib = .loading →
      ∃ m o, exec (.libraryStart h) s = .next (({ s with plant := { s.plant with
            mgu := { s.plant.mgu with lib := .running }, mou := m, out := o } } : State).replied h .accepted .nothing)
        ∧ m.accA.state = .recovering ∧ m.accB.state = .recovering ∧ m.holder = s.plant.mou.holder
        ∧ m.queue = s.plant.mou.queue ∧ m.handoff = s.plant.mou.handoff ∧ o.c = s.plant.out.c
        ∧ (s.env.held = true → m.accA.recoverDue = true ∧ m.accB.recoverDue = true ∧ o.m = s.plant.out.m)
        ∧ (s.env.held = false → ∀ ka kb, ka = .recover (decide (s.plant.mou.holder ≠ some .A)) 47 →
            kb = .recover (decide (s.plant.mou.holder ≠ some .B)) 80 →
            o.m = s.plant.out.m ++ [.step .A ka s.plant.mou.accA.nextTag, .step .B kb s.plant.mou.accB.nextTag]
            ∧ m.accA.step = some { kind := ka, tag := s.plant.mou.accA.nextTag, deadline := s.env.tick + 100 }
            ∧ m.accB.step = some { kind := kb, tag := s.plant.mou.accB.nextTag, deadline := s.env.tick + 100 })))
  ∧ (∀ (h : Hdr) (s : State), s.manages h →
    (s.plant.mgu.lib = .loading → exec (.restart h) s = .next (s.replied h .wrongState .nothing))
    ∧ ((s.plant.mgu.lib = .running ∨ s.plant.mgu.lib = .restarting) →
      ∀ closes : TaskNo × Task × DriveNo → Prop,
      (closes = fun c => s.plant.task? c.1 = some c.2.1
        ∧ (c.2.1.state = .mounted ∨ (c.2.1.state = .unloading ∧ c.2.1.pending = none))
        ∧ (s.plant.drive c.2.2).bound = some c.1 ∧ (∀ e, e < c.2.2 → (s.plant.drive e).bound ≠ some c.1)
        ∧ (s.plant.drive c.2.2).mountOpen = true) →
      ∃ (t : State) (l : List CFrame) (m : List MFrame) (us : List Usage) (cs : List (TaskNo × Task × DriveNo)),
        exec (.restart h) s = .next t ∧ t.env = s.env ∧ t.pending = s.pending
        ∧ t.plant.out.c = s.plant.out.c ++ l ++ [.reply h.path h.tag .accepted .nothing]
        ∧ t.plant.out.m = s.plant.out.m ++ m
        ∧ (t.plant.mgu.lib = .restarting ∧ t.plant.mgu.ansA = false ∧ t.plant.mgu.ansB = false
          ∧ ∀ i, i ≠ EventFlag.acctReady.index → i ≠ EventFlag.accountSaturated.index →
              i ≠ EventFlag.promptBacklog.index → t.plant.mgu.flags.get i = s.plant.mgu.flags.get i)
        ∧ ((∀ p : Path, t.oiu.queues.get p = [] ∧ t.oiu.paced.get p = false) ∧ t.oiu.lastServed = s.oiu.lastServed
          ∧ (∀ p o, o ∈ s.oiu.queues.get p → CFrame.status p (some o.tag) .last (.ended .libraryRestarted 0) ∈ l)
          ∧ ∀ p, (CFrame.status p none .path .resume ∈ l ↔ s.oiu.paced.get p = true))
        ∧ ((∀ n, t.plant.task? n = none) ∧ t.plant.tcu.requests = [] ∧ t.plant.tcu.rackFull = false
          ∧ (∀ n k p g, s.plant.task? n = some k → k.origin = .path p g → k.answered = false →
              CFrame.status p (some g) .last (.ended .libraryRestarted k.tags) ∈ l)
          ∧ ∀ n k p g, s.plant.task? n = some k → k.requester = some (p, g) →
              CFrame.status p (some g) .last (.dismountEnded .libraryRestarted (k.drive.getD 0)) ∈ l)
        ∧ ((∀ c, c ∈ cs ↔ closes c) ∧ cs.Pairwise (fun x y => x.1 < y.1)
          ∧ t.acu.buffer = s.acu.buffer ++ us
          ∧ List.Forall₂ (fun (c : TaskNo × Task × DriveNo) (u : Usage) =>
              u.account = c.2.1.account ∧ u.drive = c.2.2 ∧ (∀ q, c.2.1.serial = some q → u.volume = q)
              ∧ u.footage = 0 ∧ u.blocksRead = 0 ∧ u.blocksWritten = 0
              ∧ (∀ at_, c.2.1.mountedTick = some at_ → u.occupancy = min 4294967295 (s.env.tick - at_).toNat)
              ∧ (∀ n, c.2.1.mountedMinute = some n → u.minute = n ∧ u.factor = shiftFactor s.env.set.shifts n)
              ∧ (∀ r, r = s.env.set.rates.get (s.acu.accounts.get c.2.1.account.toFin).cls →
                  u.charge = min 16777215
                    (((r.fee + (u.occupancy + r.granule - 1) / r.granule * r.price) * u.factor + 8) / 16))
              ∧ u.tags.getLsbD CondTag.restartClosed.bit = true) cs us
          ∧ ∀ i a, a = us.filter (fun u => u.account.toFin = i) →
            (a = [] → t.acu.accounts.get i = s.acu.accounts.get i)
            ∧ (a ≠ [] →
              (t.acu.accounts.get i).total
                  = min 4294967295 ((s.acu.accounts.get i).total + (a.map fun u => u.charge).sum)
              ∧ (t.acu.accounts.get i).mounts = min 65535 ((s.acu.accounts.get i).mounts + a.length)
              ∧ (t.acu.accounts.get i).occupancy
                  = min 4294967295 ((s.acu.accounts.get i).occupancy + (a.map fun u => u.occupancy).sum)))
        ∧ (t.plant.ltu.volumes.map (fun v => v.serial) = s.plant.ltu.volumes.map (fun v => v.serial)
          ∧ t.plant.ltu.pool = s.plant.ltu.pool
          ∧ (∀ q v, s.plant.vol? q = some v → ∃ w, t.plant.vol? q = some w
            ∧ w = { v with bound := none, loc := w.loc, misfiled := w.misfiled, refilePending := w.refilePending,
                           mounts := w.mounts, footage := w.footage, worn := w.worn }
            ∧ (((∃ a, v.loc = .gripper a) ∨ ∃ r, v.loc = .handoff r) →
                w.loc = .unknown ∧ w.misfiled = false ∧ w.refilePending = false)
            ∧ ((∃ n, v.loc = .entry n) → w.loc = .outside ∧ w.misfiled = false ∧ w.refilePending = false)
            ∧ ((∀ a, v.loc ≠ .gripper a) → (∀ r, v.loc ≠ .handoff r) → (∀ n, v.loc ≠ .entry n) →
                w.loc = v.loc ∧ w.misfiled = v.misfiled ∧ w.refilePending = v.refilePending)
            ∧ ((∀ c, closes c → c.2.1.serial ≠ some q) →
                w.mounts = v.mounts ∧ w.footage = v.footage ∧ w.worn = v.worn)
            ∧ ∀ c, closes c → c.2.1.serial = some q → (∀ d, closes d → d.2.1.serial = some q → d = c) →
                w.mounts = min 65535 (v.mounts + 1) ∧ w.footage = min 4294967295 v.footage
                ∧ (w.worn = true ↔ (v.worn = true
                    ∨ (s.env.set.mountLimit ≠ 0 ∧ s.env.set.mountLimit ≤ w.mounts))))
          ∧ (s.plant.ltu.cells.Pairwise (fun r q => r.num < q.num) → ∀ c,
              (t.plant.cell c).homeOf = (s.plant.cell c).homeOf
              ∧ ((∃ r u, (s.plant.cell c).occ = .reserved r u) → (t.plant.cell c).occ = .empty)
              ∧ ((∀ r u, (s.plant.cell c).occ ≠ .reserved r u) → (t.plant.cell c).occ = (s.plant.cell c).occ))
          ∧ (∀ n, t.plant.entry n = Slot.clear)
          ∧ (∀ n, ((s.plant.service n).state = .occupied → t.plant.service n = { s.plant.service n with task := none })
              ∧ ((s.plant.service n).state ≠ .occupied → t.plant.service n = Slot.clear))
          ∧ ∀ r, ((s.plant.handoff r).state = .occupied →
                t.plant.handoff r = { state := .occupied, content := some .unknown, task := none })
              ∧ ((s.plant.handoff r).state ≠ .occupied → t.plant.handoff r = Slot.clear))
        ∧ ((∀ a, (t.plant.acc a).state = .recovering ∧ (t.plant.acc a).bay = none ∧ (t.plant.acc a).gripper = .notKnown
            ∧ (t.plant.acc a).leg = none ∧ (t.plant.acc a).errand = none ∧ (t.plant.acc a).late = (s.plant.acc a).late
            ∧ (t.plant.acc a).lastFault = (s.plant.acc a).lastFault)
          ∧ t.plant.mou.queue = [] ∧ t.plant.mou.holder = none ∧ t.plant.mou.claimant = none
          ∧ t.plant.mou.tenureEnd = none ∧ t.plant.mou.expired = false
          ∧ (s.env.held = true →
            (∀ a, (t.plant.acc a).recoverDue = true ∧ (t.plant.acc a).step = none
              ∧ (t.plant.acc a).nextTag = (s.plant.acc a).nextTag)
            ∧ ∀ a k g, MFrame.step a k g ∉ m)
          ∧ (s.env.held = false →
            (∀ a, (t.plant.acc a).recoverDue = false ∧ (t.plant.acc a).nextTag = (s.plant.acc a).nextTag + 1
              ∧ ∀ f, f = InFlight.mk (.recover true (if a = .A then 47 else 80)) (s.plant.acc a).nextTag (s.env.tick + 100) →
                  (t.plant.acc a).step = some f)
            ∧ ∃ u v, m = u ++ .step .A (.recover true 47) s.plant.mou.accA.nextTag
                :: .step .B (.recover true 80) s.plant.mou.accB.nextTag :: v
              ∧ ∀ a k g, MFrame.step a k g ∉ u ++ v))
        ∧ (∀ d r q, r = s.plant.drive d → q = t.plant.drive d →
          q = { r with state := q.state, preFault := q.preFault, volume := q.volume, bound := none, mountOpen := false,
                       footage := q.footage, offlinePending := q.offlinePending, rethreadDone := q.rethreadDone,
                       unloadSeen := q.unloadSeen }
          ∧ (r.footage ≤ 4294967295 → q.footage = r.footage)
          ∧ ((r.state = .empty ∨ r.state = .offline ∨ r.state = .absent ∨ r.state = .heldReel) →
              q.state = r.state ∧ q.volume = r.volume ∧ q.unloadSeen = r.unloadSeen
              ∧ q.offlinePending = r.offlinePending)
          ∧ (r.state = .reserved → q.volume = none ∧ q.unloadSeen = false ∧ q.offlinePending = false
              ∧ q.state = if r.offlinePending then .offline else .empty)
          ∧ (r.state = .cleanDue → q.state = .cleanDue ∧ q.volume = none ∧ q.offlinePending = r.offlinePending)
          ∧ ((r.state = .threading ∨ r.state = .mounted ∨ r.state = .unloading ∨ r.state = .unloaded) →
              q.state = .heldReel ∧ q.volume = r.volume ∧ q.offlinePending = r.offlinePending
              ∧ (r.state = .threading → q.unloadSeen = r.unloadSeen)
              ∧ ((r.state = .mounted ∨ r.state = .unloading) → q.unloadSeen = false)
              ∧ (r.state = .unloaded → q.unloadSeen = true))
          ∧ (r.state = .faulted → q.state = .faulted ∧ q.offlinePending = r.offlinePending
              ∧ (r.preFault = some .reserved → q.preFault = some .empty ∧ q.volume = none)
              ∧ ((r.preFault = some .threading ∨ r.preFault = some .mounted ∨ r.preFault = some .unloading
                  ∨ r.preFault = some .unloaded) → q.preFault = some .heldReel ∧ q.volume = r.volume)
              ∧ ((r.preFault = some .empty ∨ r.preFault = some .heldReel ∨ r.preFault = some .cleanDue) →
                  q.preFault = r.preFault))
          ∧ (MFrame.drive d .unload ∈ m ↔ (r.unloadSeen = false
              ∧ (r.state = .threading ∨ (r.state = .faulted ∧ r.preFault = some .threading)))))
        ∧ (t.plant.pru.backlog = [] ∧ t.plant.pru.later = none
          ∧ (∀ p ∈ t.plant.pru.table, ∃ d, p.kind = .clean ∧ p.owner = .drive d ∧ p.params = { drive := some d }
              ∧ ((s.plant.drive d).state = .cleanDue
                ∨ ((s.plant.drive d).state = .faulted ∧ (s.plant.drive d).preFault = some .cleanDue)))
          ∧ ∀ d, (s.plant.drive d).state = .cleanDue → ∃ p ∈ t.plant.pru.table, p.kind = .clean ∧ p.owner = .drive d)
        ∧ t.plant.adu = { s.plant.adu with
            list1 := { s.plant.adu.list1 with state := .idle, pos := none, live := false, startPending := false },
            list2 := { s.plant.adu.list2 with state := .idle, pos := none, live := false, startPending := false } }))

/-! ### Accounting -/

/-- R177, R179: LOAD ACCOUNT sets one account's rate class and allowance, keeping its totals (a class above 7 is BAD
VALUE); CLEAR ACCOUNT sets the totals and the saturated mark of one account, or of all of them, to nothing, keeping
class and allowance (a scope byte above 1 is BAD VALUE, log 52). R187, R189: SET DRAIN takes a trigger level of 8, 16,
32 or 64 (any other is BAD VALUE) and a quiet interval clamped to 10–6,000, replies ACCEPTED, and sets ACCT-READY
where the trigger was lowered to or below a count of at least 1 (the NOTICE before ACCEPTED, by the model's choice,
log 51). R188: the expiry of the quiet timer stops it and, where the buffer holds a record, sets ACCT-READY; that
before its tick, or stopped, it does nothing is the model's choice (log 22). R190: TAKE of a count of 0 or above 8, or
malformed (in length, or a given byte above 1, log 52), is BAD VALUE; one whose expected number is not the oldest
record's is SEQUENCE with that number, and removes nothing; otherwise the oldest records, at most the count, leave the
buffer and are sent as RECORD replies, oldest first, then ACCEPTED with the number returned and the number that
remain, and ACCT-READY is clear where the buffer is left empty. -/
def Obligations.AccountsDrainTimerAndTake : Prop :=
  (((∀ (h : Hdr) (n c : Byte) (w : BitVec 32) (s : State), s.manages h →
    (7 < c.toNat → exec (.loadAccount h n c w) s = .next (s.replied h .badValue .nothing))
    ∧ ∀ k : Fin 8, c.toNat = k.val → ∃ v : Vector Account 256,
      exec (.loadAccount h n c w) s = .next (({ s with acu := { s.acu with accounts := v } } : State).replied h .accepted .nothing)
      ∧ (∀ i : Fin 256, i.val = n.toNat → v.get i = { s.acu.accounts.get i with cls := k, allowance := w.toNat })
      ∧ ∀ i : Fin 256, i.val ≠ n.toNat → v.get i = s.acu.accounts.get i)
  ∧ ∀ (h : Hdr) (scope n : Byte) (s : State), s.manages h →
    (1 < scope.toNat → exec (.clearAccount h scope n) s = .next (s.replied h .badValue .nothing))
    ∧ (scope.toNat ≤ 1 → ∃ v : Vector Account 256,
      exec (.clearAccount h scope n) s
        = .next (({ s with acu := { s.acu with accounts := v } } : State).replied h .accepted .nothing)
      ∧ (∀ i : Fin 256, (scope = 1 ∨ i.val = n.toNat) →
          v.get i = { s.acu.accounts.get i with total := 0, mounts := 0, occupancy := 0, saturated := false })
      ∧ ∀ i : Fin 256, scope = 0 → i.val ≠ n.toNat → v.get i = s.acu.accounts.get i))
  ∧ (∀ (h : Hdr) (n : Byte) (q : BitVec 16) (s : State), s.manages h →
    (n ≠ 8 → n ≠ 16 → n ≠ 32 → n ≠ 64 → exec (.setDrain h n q) s = .next (s.replied h .badValue .nothing))
    ∧ ((n = 8 ∨ n = 16 ∨ n = 32 ∨ n = 64) →
      ∃ (v : Nat) (y : State), y = s.withSet (fun t => { t with trigger := n.toNat, quiet := v })
        ∧ (q.toNat < 10 → v = 10) ∧ (6000 < q.toNat → v = 6000) ∧ (10 ≤ q.toNat → q.toNat ≤ 6000 → v = q.toNat)
        ∧ ((s.env.set.trigger ≤ n.toNat ∨ s.acu.buffer.length < n.toNat ∨ s.acu.buffer = []) →
            exec (.setDrain h n q) s = .next (y.replied h .accepted .nothing))
        ∧ (n.toNat < s.env.set.trigger → n.toNat ≤ s.acu.buffer.length → s.acu.buffer ≠ [] →
            exec (.setDrain h n q) s
              = .next (({ y with plant := y.plant.setFlag y.env .acctReady } : State).replied h .accepted .nothing))))
  ∧ (∀ s : State, s.free →
    (s.acu.quietEnd = none → exec .quietTimerExpiry s = .next s)
    ∧ ∀ t, s.acu.quietEnd = some t →
      (reached s.env.tick t = false → exec .quietTimerExpiry s = .next s)
      ∧ (reached s.env.tick t = true →
        (s.acu.buffer = [] → exec .quietTimerExpiry s = .next { s with acu := { s.acu with quietEnd := none } })
        ∧ (s.acu.buffer ≠ [] → exec .quietTimerExpiry s
            = .next { s with acu := { s.acu with quietEnd := none }, plant := s.plant.setFlag s.env .acctReady }))))
  ∧ ((∀ (h : Hdr) (k g : Byte) (e : BitVec 16) (s : State), s.manages h →
    ((k = 0 ∨ 8 < k.toNat ∨ 1 < g.toNat) → exec (.take h k g e) s = .next (s.replied h .badValue .nothing))
    ∧ (1 ≤ k.toNat → k.toNat ≤ 8 → g.toNat ≤ 1 →
      (∀ u l, g = 1 → s.acu.buffer = u :: l → u.seq ≠ e.toNat →
        exec (.take h k g e) s = .next (s.replied h .sequence (.sequence u.seq)))
      ∧ ((g = 0 ∨ ∀ u l, s.acu.buffer = u :: l → u.seq = e.toNat) →
        ∃ t, exec (.take h k g e) s = .next t ∧ t.acu = { s.acu with buffer := s.acu.buffer.drop k.toNat }
          ∧ t.plant.out.c = s.plant.out.c
              ++ (s.acu.buffer.take k.toNat).map (fun u => CFrame.reply h.path h.tag .record (.usage u))
              ++ [.reply h.path h.tag .accepted (.taken (min k.toNat s.acu.buffer.length) (s.acu.buffer.length - k.toNat))]
          ∧ t.plant.mgu.gen = s.plant.mgu.gen
          ∧ (k.toNat < s.acu.buffer.length → t.plant.mgu = s.plant.mgu)
          ∧ (s.acu.buffer.length ≤ k.toNat →
              t.plant.mgu.flags.get EventFlag.acctReady.index
                = { s.plant.mgu.flags.get EventFlag.acctReady.index with isSet := false }
              ∧ ∀ i, i ≠ EventFlag.acctReady.index → t.plant.mgu.flags.get i = s.plant.mgu.flags.get i)
          ∧ t.env = s.env ∧ t.oiu = s.oiu ∧ t.plant.ltu = s.plant.ltu ∧ t.plant.tcu = s.plant.tcu
          ∧ t.plant.mou = s.plant.mou ∧ t.plant.dru = s.plant.dru ∧ t.plant.pru = s.plant.pru ∧ t.plant.adu = s.plant.adu)))
  ∧ ∀ (h : Hdr) (s : State), s.free → s.env.set.mgmtMask.getLsbD h.path.val = true → s.plant.mgu.lib ≠ .starting →
    h.sized = false → ∀ (k g : Byte) (e : BitVec 16), exec (.take h k g e) s = .next (s.replied h .badValue .nothing))

/-- R175: the shift factor of a minute: 16 for an empty table, else the factor of the period with the greatest start
not above the minute, or, where every start is above it, of the period with the greatest start of all. R180, R181,
R182: the close that an UNLOADED makes charges the account named by the task: the charge is that of the six stages,
exact and clamped at 16,777,215, with the tag CHARGE-CLAMPED where it was clamped; the account's total, mounts and
occupancy rise by it, by one and by the occupancy, each saturating; a total that would pass 4,294,967,295 sets the
saturated mark, the tag TOTAL-SATURATED and ACCOUNT-SATURATED; the usage record carries the occupancy, the shift
factor, the charge and the condition tags. -/
def Obligations.CloseChargesTheAccount : Prop :=
  (∀ (l : List Period) (m : Nat), shiftsOk l →
    (l = [] → shiftFactor l m = 16)
    ∧ (∀ p ∈ l, p.start ≤ m → (∀ q ∈ l, q.start ≤ m → q.start ≤ p.start) → shiftFactor l m = p.factor)
    ∧ ∀ p ∈ l, (∀ q ∈ l, m < q.start) → (∀ q ∈ l, q.start ≤ p.start) → shiftFactor l m = p.factor)
  ∧ (∀ (d : DriveNo) (f : BitVec 16) (br bw : BitVec 24) (t : TaskNo) (k : Task) (q : Serial) (at_ : Tick) (minute : Nat)
    (s : State), s.reports →
    ((s.plant.drive d).state = .mounted ∨ (s.plant.drive d).state = .unloading) → (s.plant.drive d).bound = some t →
    (s.plant.drive d).mountOpen = true → s.plant.task? t = some k → k.pending = none → k.serial = some q →
    k.mountedTick = some at_ → k.mountedMinute = some minute →
    ∀ (acct : Account) (r : Rate) (occ sh base : Nat), acct = s.acu.accounts.get k.account.toFin →
      r = s.env.set.rates.get acct.cls → occ = min 4294967295 (s.env.tick - at_).toNat →
      sh = shiftFactor s.env.set.shifts minute →
      base = r.fee + (occ + r.granule - 1) / r.granule * r.price + f.toNat * r.wear / 100 →
      ∃ (y : Plant) (a : Acu) (u : Usage) (b : Account) (m : Task),
        exec (.unloaded d f br bw) s = .next { s with acu := a, plant := y.settle s.env }
        ∧ a.buffer = s.acu.buffer ++ [u] ∧ u.occupancy = occ ∧ u.factor = sh ∧ u.minute = minute
        ∧ u.charge = min 16777215 ((base * sh + 8) / 16)
        ∧ a.accounts.get k.account.toFin = b ∧ b.total = min 4294967295 (acct.total + u.charge)
        ∧ b.mounts = min 65535 (acct.mounts + 1) ∧ b.occupancy = min 4294967295 (acct.occupancy + occ)
        ∧ b.cls = acct.cls ∧ b.allowance = acct.allowance
        ∧ (b.saturated = true ↔ (acct.saturated = true ∨ 4294967295 < acct.total + u.charge))
        ∧ (∀ i, i ≠ k.account.toFin → a.accounts.get i = s.acu.accounts.get i)
        ∧ y.task? t = some m ∧ (16777215 < (base * sh + 8) / 16 → m.tags.getLsbD CondTag.chargeClamped.bit = true)
        ∧ (4294967295 < acct.total + u.charge → m.tags.getLsbD CondTag.totalSaturated.bit = true)
        ∧ (∀ c : CondTag, u.tags.getLsbD c.bit = true ↔ (k.tags.getLsbD c.bit = true
            ∨ (c = .chargeClamped ∧ 16777215 < (base * sh + 8) / 16)
            ∨ (c = .totalSaturated ∧ 4294967295 < acct.total + u.charge)))
        ∧ (4294967295 < acct.total + u.charge →
            (y.mgu.flags.get EventFlag.accountSaturated.index).isSet = true))

/-- From every state in which they hold, every command keeps: the settings, the day clock and the link counters in the
ranges of their rules (R32, R110, R142, R147, R171–R174, R187, R188, R193, R194, R199, R214); no queue longer than 16
(R31); the accounts and the buffer in their ranges with consecutive sequence numbers (R181, R182, R185); usage records and
open mounts at most 128 together (R45); at most 32 open prompts and 96 requests in the backlog (R148, R150), none left from
a delivery, and no RECOVERY request waiting twice (R44); legs with numbers of their own, and no leg of a task that waits for
a slot (R58, R60, R91); open prompts of urgency at most 3, in the order of their opening (R152, R153). -/
def Obligations.SettingsQueuesAndRecordsStayInRange : Prop :=
  (∀ (c : Instr) (s t : State), s.env.ok → exec c s = .next t → t.env.ok)
  ∧ (∀ (c : Instr) (s t : State), s.oiu.ok → exec c s = .next t → t.oiu.ok)
  ∧ (∀ (c : Instr) (s t : State), s.acu.ok → exec c s = .next t → t.acu.ok)
  ∧ (∀ (c : Instr) (s t : State), s.bounded → exec c s = .next t → t.bounded)
  ∧ (∀ (c : Instr) (s t : State), s.plant.requestsOk → exec c s = .next t → t.plant.requestsOk)
  ∧ (∀ (c : Instr) (s t : State), s.plant.legsOk → exec c s = .next t → t.plant.legsOk)
  ∧ ∀ (c : Instr) (s t : State), s.env.ok → s.plant.requestsOk → s.plant.promptsOk → exec c s = .next t →
    t.plant.promptsOk

/-! ### Prompts, keys and the door -/

/-- R152: the open prompts are ranked by urgency, higher first; those of one urgency keep the order of the table, which is
that of their opening. R158, R159: a judgement of the views gives each console the highest-ranked prompt it has not skipped, or
none, with that prompt's number and urgency and the two lines of its kind's template rendered with its parameters, or
those of the IDLE template; a console whose number, urgency or lines differ from its context takes the new ones and is sent
one DISPLAY, with the bell mark at urgency 3, and one whose context stays is sent nothing; nothing else changes. That
console 1 is judged first is the model's choice (log 94). Before the start image read ends no view is judged (R169). R155: a
line is its segments one after another, padded to 40 characters, so that absent inserts show as spaces of their width: literal
text as it is, and an insert the leftmost characters of its text up to the width it is stored with (R156). The texts: VOL and
SER2 the serial; DRV the drive in two digits; SLOT E0–E7, S0–S7 or H0–H3; CELL and ACCT four and three digits with leading
zeros; ACC A or B; CODE the fault code padded on the right; OPEN the open prompts and backlogged requests padded on the
left; HOLD shows DOOR, else HOLD, else spaces. -/
def Obligations.ConsolesShowTheHighestRankedPrompt : Prop :=
  (∀ l : List Prompt, (∀ p ∈ l, p.urgency ≤ 3) → (ranked l).Perm l
    ∧ ∀ older : Prompt → Prompt → Prop, l.Pairwise older →
      (ranked l).Pairwise fun p q => q.urgency < p.urgency ∨ (p.urgency = q.urgency ∧ older p q))
  ∧ (∀ (e : Env) (x : Plant), x.mgu.lib = .starting → x.judgeViews e = x)
  ∧ (∀ (e : Env) (x : Plant) (v w : Option Prompt), x.mgu.lib ≠ .starting → x.promptsOk → x.showsAt .one v →
    x.showsAt .two w →
    x.judgeViews e = { x with
      pru := { x.pru with con1 := x.contextOf e v, con2 := x.contextOf e w },
      out := { x.out with
        m := x.out.m ++ displayed .one x.pru.con1 (x.contextOf e v) v ++ displayed .two x.pru.con2 (x.contextOf e w) w } })
  ∧ (∀ (e : Env) (n : Nat) (p : Params) (l : List Segment), (renderLine e n p l).length = 40
    ∧ ((l.flatMap (segmentText e n p)).length ≤ 40 →
      renderLine e n p l = l.flatMap (segmentText e n p) ++ spaces (40 - (l.flatMap (segmentText e n p)).length)))
  ∧ ∀ (e : Env) (n : Nat), (∀ f : Insert × Nat,
      f ∈ [(.vol, 6), (.ser2, 6), (.drv, 2), (.slot, 2), (.cell, 4), (.acct, 3), (.acc, 1), (.code, 12)] →
      insertText e n {} f.1 = spaces f.2 ∧ ∀ p : Params, (insertText e n p f.1).length = f.2)
    ∧ ∀ (p : Params), (∀ q, p.vol = some q → insertText e n p .vol = serialBytes q)
      ∧ (∀ q, p.ser2 = some q → insertText e n p .ser2 = serialBytes q)
      ∧ (∀ d, p.drive = some d →
          insertText e n p .drv = [BitVec.ofNat 8 (0x30 + d.val / 10), BitVec.ofNat 8 (0x30 + d.val % 10)])
      ∧ (∀ i : Fin 8, (p.slot = some (.entry i) → insertText e n p .slot = [0x45, BitVec.ofNat 8 (0x30 + i.val)])
          ∧ (p.slot = some (.service i) → insertText e n p .slot = [0x53, BitVec.ofNat 8 (0x30 + i.val)]))
      ∧ (∀ h : Fin 4, p.slot = some (.handoff h) → insertText e n p .slot = [0x48, BitVec.ofNat 8 (0x30 + h.val)])
      ∧ (∀ c, p.cell = some c → insertText e n p .cell = [BitVec.ofNat 8 (0x30 + c / 1000 % 10),
          BitVec.ofNat 8 (0x30 + c / 100 % 10), BitVec.ofNat 8 (0x30 + c / 10 % 10), BitVec.ofNat 8 (0x30 + c % 10)])
      ∧ (∀ a, p.account = some a → insertText e n p .acct = [BitVec.ofNat 8 (0x30 + a.toNat / 100),
          BitVec.ofNat 8 (0x30 + a.toNat / 10 % 10), BitVec.ofNat 8 (0x30 + a.toNat % 10)])
      ∧ (∀ a, p.acc = some a → insertText e n p .acc = [if a = .A then 0x41 else 0x42])
      ∧ (∀ f t, p.code = some f → (f, t) ∈ [(FaultCode.motor, "MOTOR       "), (.labelDevice, "LABEL-DEVICE"),
          (.timeout, "TIMEOUT     "), (.position, "POSITION    ")] →
          insertText e n p .code = t.toList.map fun c => BitVec.ofNat 8 c.toNat)
      ∧ (∀ t, segmentText e n p (.lit t) = t) ∧ (∀ i w, segmentText e n p (.ins i w) = (insertText e n p i).take w)
      ∧ (n ≤ 128 → ∃ a b c, insertText e n p .opens = [a, b, c] ∧ c = BitVec.ofNat 8 (0x30 + n % 10)
          ∧ b = (if n < 10 then 0x20 else BitVec.ofNat 8 (0x30 + n / 10 % 10))
          ∧ a = (if n < 100 then 0x20 else BitVec.ofNat 8 (0x30 + n / 100)))
      ∧ insertText e n p .hold = (if e.door = true then [0x44, 0x4F, 0x4F, 0x52]
          else if e.hold1 = true ∨ e.hold2 = true then [0x48, 0x4F, 0x4C, 0x44] else spaces 4)

/-- R149: a prompt request is given the next number after the one last given, from 65,535 back to 1, that no open prompt or
backlogged request holds, and with fewer than 32 prompts open it opens: its kind's initial urgency, nothing skipped, and
the next escalation and the deadline counted from the present tick, each where the kind has one. R150: with 32
open it joins the backlog's tail and PROMPT-BACKLOG is set; with the backlog full too, a WRONG-REEL, WATCH or RETIRE
request is discarded, and for any other the youngest of those in the backlog goes, or where there is none the youngest
FOREIGN request owned by an accessor. R166: an owner's withdrawal takes its prompt, or its backlogged request, away and
delivers nothing; one of a number nobody holds changes nothing. R151: at a close the backlog's head opens as R149 states,
while the table has room for it (that it stays at the head while there is none is the model's reading, log 24), and
the views are judged; and a request that the owner's answer makes is taken after the head has opened: so with 32 open
prompts, the FETCH request of a mount whose ALLOWANCE is approved goes behind the requests that already waited. -/
def Obligations.PromptsOpenOrJoinTheBacklog : Prop :=
  (∀ (e : Env) (k : PromptKind) (ps : Params) (o : PromptOwner) (x : Plant), x.requestsOk → x.pru.lastNumber ≤ 65535 →
    ∃ (j n : Nat) (r : PromptRequest) (y : Plant), x.request e k ps o = (y, n)
      ∧ n = (x.pru.lastNumber + j) % 65535 + 1 ∧ ¬ x.pru.holds n
      ∧ (∀ i < j, x.pru.holds ((x.pru.lastNumber + i) % 65535 + 1))
      ∧ r = { number := n, kind := k, params := ps, owner := o }
      ∧ (x.pru.table.length < 32 →
          y = Plant.judgeViews e { x with pru := { x.pru with
            lastNumber := n, openings := x.pru.openings + 1, table := x.pru.table ++ [r.opened e x.pru.openings] } })
      ∧ ∀ joined : List PromptRequest → Plant, (joined = fun l => Plant.judgeViews e
          (Plant.setFlag e .promptBacklog { x with pru := { x.pru with lastNumber := n, backlog := l ++ [r] } })) →
        (x.pru.table.length = 32 → x.pru.backlog.length < 96 → y = joined x.pru.backlog)
        ∧ (x.pru.table.length = 32 → x.pru.backlog.length = 96 →
          ((k = .wrongReel ∨ k = .watch ∨ k = .retire) → y = { x with pru := { x.pru with lastNumber := n } })
          ∧ (k ≠ .wrongReel → k ≠ .watch → k ≠ .retire → ∀ u v d, x.pru.backlog = u ++ d :: v → givesWay u v d →
              y = joined (u ++ v))))
  ∧ (∀ (e : Env) (n : Nat) (x : Plant), x.pru.later = none → ∀ (l : List Prompt) (b : List PromptRequest),
    l = x.pru.table.filter (fun p => p.number ≠ n) → b = x.pru.backlog.filter (fun r => r.number ≠ n) →
    (¬ x.pru.holds n → x.withdraw e n = x)
    ∧ (x.pru.holds n →
      ((b = [] ∨ 32 ≤ l.length) →
        x.withdraw e n = Plant.judgeViews e { x with pru := { x.pru with table := l, backlog := b } })
      ∧ ∀ r rest, b = r :: rest → l.length < 32 →
        x.withdraw e n = Plant.judgeViews e { x with pru := { x.pru with
          table := l ++ [r.opened e x.pru.openings], backlog := rest, openings := x.pru.openings + 1 } }))
  ∧ ∀ (k : Keyed) (p : Prompt) (r : PromptRequest) (rest : List PromptRequest) (s : State), s.keys → s.plant.requestsOk →
    s.plant.promptsOk → s.plant.pru.find? k.prompt.toNat = some p → s.plant.pru.backlog = r :: rest →
    (k.number.toNat ≤ 99 ∨ k.number.toNat = 255) →
    ∀ l : List Prompt, l = s.plant.pru.table.filter (fun q => q.number ≠ p.number) ++ [r.opened s.env s.plant.pru.openings] →
    ((p.kind = .wrongReel ∨ p.kind = .watch ∨ p.kind = .retire) → ∀ c : Instr, (c = .doneKey k ∨ c = .cancelKey k) →
      exec c s = .next { s with plant := Plant.settle s.env (Plant.judgeViews s.env { s.plant with
        pru := { s.plant.pru with table := l, backlog := rest, openings := s.plant.pru.openings + 1 } }) })
    ∧ ∀ (t : TaskNo) (m : Task) (d : DriveNo) (q : Serial) (v : Volume), p.kind = .allowance → p.owner = .task t →
      s.plant.task? t = some m → m.prompt = some p.number → m.state = .opwait → m.pending = none →
      (m.kind = .mount ∨ m.kind = .mountScratch) → m.drive = some d → (s.plant.drive d).state = .reserved →
      m.serial = some q → s.plant.vol? q = some v → v.loc = .outside → s.plant.pru.table.length = 32 → rest.length < 96 →
      (∀ u j, s.plant.task? u = some j → j.waiter = none) →
      ∃ (y : Plant) (j : Task) (f : PromptRequest), exec (.doneKey k) s = .next { s with plant := y.settle s.env }
        ∧ y.pru.table = l ∧ y.pru.backlog = rest ++ [f] ∧ f.kind = .fetch ∧ f.owner = .task t
        ∧ f.params = { vol := some q, drive := some d, account := some m.account }
        ∧ y.task? t = some j ∧ j.state = .opwait ∧ j.prompt = some f.number
        ∧ (y.mgu.flags.get EventFlag.promptBacklog.index).isSet = true ∧ y.pru.later = none

/-- R160–R162: a key taken in STARTING or LOADING, a DONE, CANCEL or SKIP that names no open prompt, a DONE with a number above 99, a CANCEL of a REMOVE, FOREIGN or ACCESSOR-FAULT prompt, a DONE of an ACCESSOR-FAULT
prompt away from MAINTAIN, and a DONE of a FETCH or LOCATE prompt without a slot 0–7 that is EMPTY each only beep.
R126, R146, R151: DONE and CANCEL close the prompt they name, whatever the console shows: a
WRONG-REEL, WATCH or RETIRE prompt leaves the table and its owner does nothing; a CLEAN prompt of an unbound
CLEAN-DUE drive makes the drive EMPTY, DONE with its footage since cleaning 0 and CANCEL with it kept. R17: the DONE of an
audit reading's FOREIGN prompt makes the FOREIGN cell EMPTY. R106, R107: the DONE of an ACCESSOR-FAULT prompt at MAINTAIN
sends the FAULTED accessor RECOVER (or keeps it unsent under hold), and every task on that prompt leaves it for a ZONE
wait, a demounting one staying DEMOUNTING (the model's reading, log 32). R20, R63: a FETCH or LOCATE DONE with an EMPTY slot puts
the volume there, claimed for the task, which takes FETCHED and plans from there with a service slot reserved (R62); their
CANCEL ends the task OPERATOR CANCELLED. R64: RING DONE makes the volume RINGED and sends it on to the drive; its CANCEL
returns the task OPERATOR CANCELLED, a visitor's ending at once. R72: RING-PULL DONE makes the volume RINGLESS, CANCEL
leaves it RINGED, and the demount goes on. R73: REMOVE DONE, and a task's FOREIGN DONE, empty the slot and end the task, a
visitor deleted and a resident at OUTSIDE. R123: THREAD-FAIL DONE sends RETHREAD and the task is THREADING; CANCEL gives
the mount up MECHANISM FAILED, with UNLOAD or, its reel unloaded already, the demount at once (what
DONE clears at the drive is the model's, log 30). R48: ALLOWANCE DONE adds the tag and starts the mount, CANCEL ends it ALLOWANCE
REFUSED. Where the order has a pending status, that is sent in place of the ending's, by the model's choice (log 78). -/
def Obligations.KeysAnswerPromptsOrBeep : Prop :=
  (∀ (k : Keyed) (s : State), s.free →
    ((s.plant.mgu.lib = .starting ∨ s.plant.mgu.lib = .loading) → ∀ c : Instr,
      (c = .doneKey k ∨ c = .cancelKey k ∨ c = .skipKey k ∨ c = .holdKey k ∨ c = .enterKey k) →
      exec c s = .next (s.withM (.beep k.console)))
    ∧ ((∀ p ∈ s.plant.pru.table, p.number ≠ k.prompt.toNat) → ∀ c : Instr,
      (c = .doneKey k ∨ c = .cancelKey k ∨ c = .skipKey k) → exec c s = .next (s.withM (.beep k.console)))
    ∧ (99 < k.number.toNat → k.number.toNat < 255 → exec (.doneKey k) s = .next (s.withM (.beep k.console))
        ∧ (s.keys → exec (.enterKey k) s = .next (s.withM (.beep k.console))))
    ∧ ∀ p, s.plant.pru.find? k.prompt.toNat = some p →
      ((p.kind = .remove ∨ p.kind = .foreign ∨ p.kind = .accessorFault) →
        exec (.cancelKey k) s = .next (s.withM (.beep k.console)))
      ∧ (p.kind = .accessorFault → (k.console = .one → s.env.sw1 ≠ .maintain) → (k.console = .two → s.env.sw2 ≠ .maintain) →
        exec (.doneKey k) s = .next (s.withM (.beep k.console)))
      ∧ (∀ t, (p.kind = .fetch ∨ p.kind = .locate) → p.owner = .task t →
        (7 < k.number.toNat ∨ ∀ n : Fin 8, k.number.toNat = n.val → (s.plant.entry n).state ≠ .empty) →
        exec (.doneKey k) s = .next (s.withM (.beep k.console))))
  ∧ (∀ (k : Keyed) (p : Prompt) (s : State), s.keys → s.plant.pru.find? k.prompt.toNat = some p →
    s.plant.pru.backlog = [] → (k.number.toNat ≤ 99 ∨ k.number.toNat = 255) → ∀ c : Instr,
    (c = .doneKey k ∨ c = .cancelKey k) → ∀ closed : Plant → Prop,
    (closed = fun y => exec c s = .next { s with plant := y.settle s.env }
      ∧ y.pru.table = s.plant.pru.table.filter (fun r => r.number ≠ p.number) ∧ y.pru.backlog = []) →
    ((p.kind = .wrongReel ∨ p.kind = .watch ∨ p.kind = .retire) →
      ∃ y : Plant, closed y ∧ y.ltu = s.plant.ltu ∧ y.tcu = s.plant.tcu ∧ y.mou = s.plant.mou ∧ y.dru = s.plant.dru
        ∧ y.adu = s.plant.adu ∧ y.mgu = s.plant.mgu ∧ y.out.c = s.plant.out.c)
    ∧ (∀ d, p.kind = .clean → p.owner = .drive d → (s.plant.drive d).state = .cleanDue → (s.plant.drive d).bound = none →
      (s.plant.drive d).offlinePending = false →
      ∃ y : Plant, closed y
        ∧ (c = .doneKey k → y.drive d = { s.plant.drive d with state := .empty, footage := 0 })
        ∧ (c = .cancelKey k → y.drive d = { s.plant.drive d with state := .empty })
        ∧ (∀ e, e ≠ d → y.drive e = s.plant.drive e) ∧ y.ltu = s.plant.ltu ∧ y.tcu = s.plant.tcu
        ∧ y.mou = s.plant.mou ∧ y.out.c = s.plant.out.c)
    ∧ (∀ a q, p.kind = .foreign → p.owner = .acc a → p.params.cell = some q → (s.plant.cell q).occ = .foreign →
      c = .doneKey k →
      ∃ y : Plant, closed y ∧ (y.cell q).occ = .empty ∧ (∀ r, r ≠ q → y.cell r = s.plant.cell r)
        ∧ y.tcu = s.plant.tcu ∧ y.mou = s.plant.mou ∧ y.dru = s.plant.dru ∧ y.out.c = s.plant.out.c)
    ∧ ∀ a, p.kind = .accessorFault → p.owner = .acc a → c = .doneKey k → (s.plant.acc a).state = .faulted →
      (k.console = .one → s.env.sw1 = .maintain) → (k.console = .two → s.env.sw2 = .maintain) →
      ∃ y : Plant, closed y ∧ (y.acc a).state = .recovering ∧ y.acc a.other = s.plant.acc a.other
        ∧ (s.env.held = true → (y.acc a).recoverDue = true ∧ (y.acc a).step = (s.plant.acc a).step)
        ∧ (s.env.held = false → ∀ b, b = StepKind.recover (decide (s.plant.mou.holder ≠ some a)) (if a = .A then 47 else 80) →
            (y.acc a).step = some { kind := b, tag := (s.plant.acc a).nextTag, deadline := s.env.tick + 100 }
            ∧ ∃ l, y.out.m = s.plant.out.m ++ .step a b (s.plant.acc a).nextTag :: l)
        ∧ (∀ t m, s.plant.task? t = some m →
          (m.prompt ≠ some p.number → y.task? t = some m)
          ∧ (m.prompt = some p.number → m.state = .demounting → y.task? t = some { m with prompt := none })
          ∧ (m.prompt = some p.number → m.state ≠ .demounting →
              y.task? t = some { m with prompt := none, state := .waiting, wait := some .zone }))
        ∧ y.ltu = s.plant.ltu ∧ y.dru = s.plant.dru)
  ∧ (∀ (k : Keyed) (p : Prompt) (t : TaskNo) (m : Task) (s : State), s.keys →
    s.plant.pru.find? k.prompt.toNat = some p → s.plant.pru.backlog = [] →
    (k.number.toNat ≤ 99 ∨ k.number.toNat = 255) → p.owner = .task t → s.plant.task? t = some m →
    m.prompt = some p.number → (m.state = .opwait ∨ m.state = .demounting) →
    (∀ u j, s.plant.task? u = some j → j.waiter = none) →
    (∀ c d, (s.plant.drive c).bound = some t → (s.plant.drive d).bound = some t → c = d) →
    ∀ went : Instr → Plant → Task → Prop,
    (went = fun c y j => exec c s = .next { s with plant := y.settle s.env } ∧ y.task? t = some j
      ∧ y.pru.table = s.plant.pru.table.filter (fun r => r.number ≠ p.number) ∧ y.pru.backlog = [] ∧ j.prompt = none
      ∧ ∀ u, u ≠ t → y.task? u = s.plant.task? u) →
    ∀ ended : Instr → Option Final → Status → Plant → Prop,
    (ended = fun c g st y => exec c s = .next { s with plant := y.settle s.env } ∧ y.task? t = none
      ∧ y.pru.table = s.plant.pru.table.filter (fun r => r.number ≠ p.number) ∧ y.pru.backlog = []
      ∧ (∀ u, u ≠ t → y.task? u = s.plant.task? u) ∧ (∀ q v, y.vol? q = some v → v.bound ≠ some t)
      ∧ (∀ d, (y.drive d).bound ≠ some t) ∧ (∀ l ∈ y.mou.queue, l.owner ≠ .task t)
      ∧ (∀ a h f, m.origin = .path a h → m.answered = false → m.pending.or g = some f →
          CFrame.status a (some h) .last (.ended f m.tags) ∈ y.out.c)
      ∧ ∀ a h, m.requester = some (a, h) → CFrame.status a (some h) .last st ∈ y.out.c) →
    ∀ leg : Plant → Location → Location → Prop,
    (leg = fun y src dst => ∃ g ∈ y.mou.queue, g.owner = .task t ∧ g.src = src ∧ g.dst = some dst ∧ g.picked = false
      ∧ g.steps = 0) →
    ∀ e, e = m.drive.getD 0 →
    ((p.kind = .fetch ∨ p.kind = .locate) →
      (∃ y, ended (.cancelKey k) (some .operatorCancelled) (.dismountEnded .operatorCancelled e) y)
      ∧ ∀ (n n2 : Fin 8) (q : Serial) (v : Volume), k.number.toNat = n.val → (s.plant.entry n).state = .empty →
        m.serial = some q → s.plant.vol? q = some v → (v.loc = .outside ∨ v.loc = .unknown) →
        (m.pending = none ∨ m.state = .demounting) → (m.drive ≠ none ∨ (m.kind ≠ .mount ∧ m.kind ≠ .mountScratch)) →
        m.service = none → s.plant.emptyService = some n2 →
        ∃ y j w, went (.doneKey k) y j ∧ y.vol? q = some w ∧ w.loc = .entry n
          ∧ y.entry n = { state := .occupied, content := some (.known q), task := some t }
          ∧ y.service n2 = Slot.reserve t ∧ j.service = some n2 ∧ j.tags.getLsbD CondTag.fetched.bit = true
          ∧ ∀ d, m.state ≠ .demounting → (m.kind = .mount ∨ m.kind = .mountScratch) → m.intent = .read →
            m.drive = some d → (s.plant.drive d).state = .reserved →
            (capable .A (.entry n) (.drive d) = true ∨ capable .B (.entry n) (.drive d) = true) →
            leg y (.entry n) (.drive d))
    ∧ (∀ (n : Fin 8) (q : Serial) (v : Volume) (d : DriveNo), p.kind = .ring → m.serial = some q →
      s.plant.vol? q = some v → v.loc = .service n → (s.plant.service n).state = .occupied → m.state ≠ .demounting →
      m.pending = none → m.drive = some d → (s.plant.drive d).state = .reserved →
      ((capable .A (.service n) (.drive d) = true ∨ capable .B (.service n) (.drive d) = true) →
        ∃ y j w, went (.doneKey k) y j ∧ y.vol? q = some w ∧ w = { v with ring := .ringed }
          ∧ leg y (.service n) (.drive d) ∧ y.dru = s.plant.dru)
      ∧ (v.cls = .visitor → ∃ y, ended (.cancelKey k) (some .operatorCancelled) (.dismounted e) y
          ∧ (y.pru.namesSlot (.service n) = true ∨ Request.service n ∈ y.tcu.requests))
      ∧ ∀ c, v.cls = .resident → v.home = some c → (s.plant.cell c).occ = .empty → m.cell = none →
        ∃ y j, went (.cancelKey k) y j ∧ j.pending = some .operatorCancelled ∧ j.cell = some c
          ∧ (y.cell c).occ = .reserved (some q) t ∧ (∀ d, (y.drive d).bound ≠ some t)
          ∧ (y.vol? q).map (fun w : Volume => w.ring) = some v.ring)
    ∧ (∀ (n : Fin 8) (q : Serial) (v : Volume) (c : CellNo), p.kind = .ringPull → m.serial = some q →
      s.plant.vol? q = some v → v.loc = .service n → m.state = .demounting → v.cls = .resident → m.cell = none →
      v.home = some c → (s.plant.cell c).occ = .empty → ∀ key, (key = .doneKey k ∨ key = .cancelKey k) →
      ∃ y j w, went key y j ∧ j.state = .demounting ∧ j.cell = some c ∧ (y.cell c).occ = .reserved (some q) t
        ∧ y.vol? q = some w ∧ (key = .doneKey k → w = { v with ring := .ringless })
        ∧ (key = .cancelKey k → w = v ∧ j.ringKept = true))
    ∧ (∀ n : Fin 8, (p.kind = .remove ∨ p.kind = .foreign) → p.params.slot = some (.service n) →
      ∃ y, ended (.doneKey k) none (.dismounted e) y ∧ y.service n = Slot.clear
        ∧ ∀ q v, (s.plant.service n).content = some (.known q) → s.plant.vol? q = some v → v.loc = .service n →
          (v.cls = .visitor → y.vol? q = none)
          ∧ (v.cls = .resident → ∃ w, y.vol? q = some w ∧ w.loc = .outside ∧ w.misfiled = false))
    ∧ (∀ d, p.kind = .threadFail → (s.plant.drive d).bound = some t → (s.plant.drive d).state = .threading →
      (∃ y j, went (.doneKey k) y j ∧ j = { m with state := .threading, wait := none, prompt := none }
        ∧ y.drive d = { s.plant.drive d with unloadSeen := false, rethreadDone := true }
        ∧ (∀ c, c ≠ d → y.drive c = s.plant.drive c) ∧ ∃ l, y.out.m = s.plant.out.m ++ .drive d .rethread :: l)
      ∧ ((s.plant.drive d).unloadSeen = false →
        ∃ y j, went (.cancelKey k) y j
          ∧ j = { m with state := .unloading, wait := none, prompt := none, pending := some .mechanismFailed }
          ∧ y.drive d = { s.plant.drive d with state := .unloading, mountOpen := false }
          ∧ (∀ c, c ≠ d → y.drive c = s.plant.drive c) ∧ ∃ l, y.out.m = s.plant.out.m ++ .drive d .unload :: l)
      ∧ ∀ q v, (s.plant.drive d).unloadSeen = true → m.serial = some q → s.plant.vol? q = some v → v.loc = .drive d →
        s.plant.emptyService ≠ none →
        ∃ y j, went (.cancelKey k) y j ∧ j.state = .demounting ∧ j.pending = some .mechanismFailed
          ∧ y.drive d = { s.plant.drive d with state := .unloaded, mountOpen := false })
    ∧ ∀ d, p.kind = .allowance → m.drive = some d →
      (∃ y, ended (.cancelKey k) (some .allowanceRefused) (.dismounted e) y)
      ∧ ((s.plant.drive d).state = .cleanDue → m.state ≠ .demounting →
        ∃ y j, went (.doneKey k) y j ∧ j.state = .waiting ∧ j.wait = some .clean
          ∧ j.tags = addTag .cleanWaited (addTag .allowanceApproved m.tags))
      ∧ ∀ q v c, (s.plant.drive d).state = .reserved → m.state ≠ .demounting → m.pending = none → m.serial = some q →
        (m.kind = .mount ∨ m.kind = .mountScratch) → m.intent = .read → s.plant.vol? q = some v → v.loc = .cell c →
        (capable .A (.cell c) (.drive d) = true ∨ capable .B (.cell c) (.drive d) = true) →
        ∃ y j, went (.doneKey k) y j ∧ j.tags = addTag .allowanceApproved m.tags ∧ leg y (.cell c) (.drive d)
          ∧ y.ltu = s.plant.ltu ∧ y.dru = s.plant.dru)

/-- R60: DONE and CANCEL of a RACK-FULL prompt close it and do nothing more: the mark stays, so a task that then becomes a
service waiter opens no second one; with the mark clear it sets the mark and opens a RACK-FULL prompt it owns. R126: DONE
and CANCEL of a CLEAN prompt close it, DONE with the drive's footage since cleaning 0 and CANCEL with it kept. A bound CLEAN-DUE
drive becomes RESERVED, and the mount that waits for it is planned: from a cell that an accessor can carry it from to the
drive its leg is queued, with the status MOVING where such an accessor is in working order (R61), and from OUTSIDE or UNKNOWN a
FETCH or LOCATE prompt is opened; the tags, CLEAN-WAITED among them, stay. An unbound one becomes EMPTY, or, with
offline-pending set, OFFLINE with the flag clear (R127). R126, R128: a FAULTED drive whose pre-fault state is CLEAN-DUE
stays FAULTED: unbound its pre-fault state becomes EMPTY (offline-pending stays for its ONLINE: the model's reading, log 31),
bound RESERVED, and the task waits on with the reason DRIVE-FREE. A deadline's expiry is in PromptsEscalateAndExpire, and a
CLEAN prompt of an unbound drive with no offline-pending, and every other kind, in KeysAnswerPromptsOrBeep. -/
def Obligations.RackFullAndCleanAnswersReachTheirOwners : Prop :=
  (∀ (k : Keyed) (p : Prompt) (s : State), s.keys → s.plant.pru.find? k.prompt.toNat = some p →
    s.plant.pru.backlog = [] → s.plant.pru.table.length ≤ 32 → (k.number.toNat ≤ 99 ∨ k.number.toNat = 255) → ∀ c : Instr,
    (c = .doneKey k ∨ c = .cancelKey k) → ∀ went : Plant → List Prompt → Prop,
    (went = fun y opened => exec c s = .next { s with plant := y.settle s.env } ∧ y.pru.backlog = []
      ∧ y.pru.table = s.plant.pru.table.filter (fun r => r.number ≠ p.number) ++ opened) →
    (p.kind = .rackFull → ∃ y : Plant, went y [] ∧ y.ltu = s.plant.ltu ∧ y.tcu = s.plant.tcu ∧ y.mou = s.plant.mou
      ∧ y.dru = s.plant.dru ∧ y.adu = s.plant.adu ∧ y.mgu = s.plant.mgu ∧ y.out.c = s.plant.out.c)
    ∧ ∀ (d : DriveNo) (r z : Drive), p.kind = .clean → p.owner = .drive d → r = s.plant.drive d →
      z = { r with footage := if c = .doneKey k then 0 else r.footage } → ∀ cleaned : Plant → Drive → Prop,
      (cleaned = fun y w => y.drive d = w ∧ (∀ e, e ≠ d → y.drive e = s.plant.drive e) ∧ y.ltu = s.plant.ltu
        ∧ y.adu = s.plant.adu) →
      (r.state = .cleanDue → r.bound = none → r.offlinePending = true →
        ∃ y, went y [] ∧ cleaned y { z with state := .offline, offlinePending := false } ∧ y.tcu = s.plant.tcu
          ∧ y.mou = s.plant.mou ∧ y.out.c = s.plant.out.c)
      ∧ (r.state = .faulted → r.preFault = some .cleanDue → r.bound = none →
        ∃ y, went y [] ∧ cleaned y { z with preFault := some .empty } ∧ y.tcu = s.plant.tcu ∧ y.mou = s.plant.mou
          ∧ y.out.c = s.plant.out.c)
      ∧ ∀ (t : TaskNo) (m : Task), r.bound = some t → s.plant.task? t = some m → m.state = .waiting → m.wait = some .clean →
        (r.state = .faulted → r.preFault = some .cleanDue →
          ∃ y, went y [] ∧ cleaned y { z with preFault := some .reserved } ∧ y.mou = s.plant.mou
            ∧ y.task? t = some { m with wait := some .driveFree, prompt := none }
            ∧ ∀ u, u ≠ t → y.task? u = s.plant.task? u)
        ∧ ∀ q v, r.state = .cleanDue → m.serial = some q → s.plant.vol? q = some v → m.drive = some d →
          (∀ i, v.loc = .cell i → ¬(m.intent = .write ∧ v.ring = .ringless) →
            (capable .A (.cell i) (.drive d) = true ∨ capable .B (.cell i) (.drive d) = true) →
            ∃ y j, went y [] ∧ cleaned y { z with state := .reserved } ∧ y.task? t = some j ∧ j.prompt = none
              ∧ j.tags = m.tags ∧ (∀ u, u ≠ t → y.task? u = s.plant.task? u)
              ∧ (∃ g ∈ y.mou.queue, g.owner = .task t ∧ g.src = .cell i ∧ g.dst = some (.drive d) ∧ g.picked = false)
              ∧ ∀ b, capable b (.cell i) (.drive d) = true → (s.plant.acc b).state ≠ .unknown →
                (s.plant.acc b).state ≠ .faulted → (s.plant.acc b).state ≠ .recovering →
                j.state = .moving ∧ j.wait = none
                  ∧ ∀ a h, m.origin = .path a h → m.answered = false → CFrame.status a (some h) .interim .moving ∈ y.out.c)
          ∧ ((v.loc = .outside ∨ v.loc = .unknown) → (m.kind = .mount ∨ m.kind = .mountScratch) →
            ∃ y j g, went y [g] ∧ cleaned y { z with state := .reserved } ∧ y.task? t = some j ∧ j.state = .opwait
              ∧ j.prompt = some g.number ∧ j.tags = m.tags ∧ (∀ u, u ≠ t → y.task? u = s.plant.task? u)
              ∧ g.owner = .task t ∧ g.kind = (if v.loc = .outside then .fetch else .locate)
              ∧ g.params = { vol := some q, drive := some d, account := if v.loc = .outside then some m.account else none }))
  ∧ ∀ (e : Env) (t : TaskNo) (m : Task) (w : Work) (x : Plant), ∀ y, y = x.waitService e t w → x.task? t = some m →
    (x.tcu.rackFull = true → y.pru = x.pru ∧ y.tcu.rackFull = true)
    ∧ (x.tcu.rackFull = false → x.pru.table.length < 32 → x.pru.later = none →
      y.tcu.rackFull = true ∧ ∃ g : Prompt, y.pru.table = x.pru.table ++ [g] ∧ g.kind = .rackFull ∧ g.owner = .task t)

/-- R163–R165: SKIP adds the console to the prompt's skipped-at set and the views are judged; HOLD toggles the
console's hold source, the displays follow and the accessors settle; a switch report sets the console's key switch
in every library state and changes nothing else. R100, R155: DOOR OPEN with DOOR clear sets it, and DOOR CLOSED with
DOOR set clears it, the displays following and the accessors settling; with DOOR already so, each changes nothing. R198,
R199: a door close is a trigger to each audit list in DOOR mode, list 1 before list 2, taken by the list's own state (a
pass that starts, goes on from its pause, waits for the leg of an ended one, or is overrun; an L2 above 64 starts list 2
past the table by the model's reading, log 48); with neither list in DOOR mode, or in STARTING, it starts no pass. -/
def Obligations.SkipHoldSwitchAndDoor : Prop :=
  (∀ (k : Keyed) (s : State),
    (∀ p, s.keys → s.plant.pru.find? k.prompt.toNat = some p →
      exec (.skipKey k) s = .next { s with plant := Plant.judgeViews s.env { s.plant with pru := { s.plant.pru with
        table := s.plant.pru.table.map fun r => if r.number = p.number then
          (if k.console = .one then { r with skip1 := true } else { r with skip2 := true }) else r } } })
    ∧ (∀ e : Env, s.keys → e = { s.env with
        hold1 := (if k.console = .one then !s.env.hold1 else s.env.hold1),
        hold2 := (if k.console = .two then !s.env.hold2 else s.env.hold2) } →
      exec (.holdKey k) s = .next { s with env := e, plant := (s.plant.judgeViews e).settle e })
    ∧ (s.free → (∀ (c : Instr) (w : KeySwitch), ((c = .switchRun k ∧ w = .run) ∨ (c = .switchMaintain k ∧ w = .maintain)) →
      (k.console = .one → exec c s = .next { s with env := { s.env with sw1 := w } })
      ∧ (k.console = .two → exec c s = .next { s with env := { s.env with sw2 := w } }))))
  ∧ (∀ s : State, s.free →
    (s.env.door = true → exec .doorOpen s = .next s)
    ∧ (s.env.door = false → exec .doorClosed s = .next s)
    ∧ (∀ e : Env, e = { s.env with door := true } → s.env.door = false →
        exec .doorOpen s = .next { s with env := e, plant := (s.plant.judgeViews e).settle e })
    ∧ (∀ e : Env, e = { s.env with door := false } → s.env.door = true →
        ((s.plant.adu.list1.mode ≠ .door ∧ s.plant.adu.list2.mode ≠ .door) ∨ s.plant.mgu.lib = .starting) →
        exec .doorClosed s = .next { s with env := e, plant := (s.plant.judgeViews e).settle e })
    ∧ (∀ e : Env, e = { s.env with door := false } → s.env.door = true → s.plant.mgu.lib ≠ .starting →
        ∃ x y : Plant, exec .doorClosed s = .next { s with env := e, plant := (y.judgeViews e).settle e }
          ∧ (s.plant.adu.list1.mode = .door → s.plant.triggered e .one x)
          ∧ (s.plant.adu.list1.mode ≠ .door → x = s.plant)
          ∧ (s.plant.adu.list2.mode = .door → x.triggered e .two y)
          ∧ (s.plant.adu.list2.mode ≠ .door → y = x)))

/-- R153: the expiry of a prompt's next-escalation tick raises its urgency by one up to 3, clears its skipped-at set
and sets the next expiry one of its intervals after the last (so the model reads "one escalation interval later",
log 15); the views are judged. R154: the expiry of the deadline closes the prompt; a WRONG-REEL, RACK-FULL or WATCH
prompt is closed as acknowledged; the task on a FETCH or LOCATE ends OPERATOR TIMEOUT; RING returns the task with OPERATOR
TIMEOUT pending, a visitor's ending at once, and THREAD-FAIL gives its mount up with it; RING-PULL leaves the ring and the
demount goes on; CLEAN puts the cleaning off. That before its tick neither expiry does anything is the model's choice (log 22). -/
def Obligations.PromptsEscalateAndExpire : Prop :=
  (∀ (n : BitVec 16) (p : Prompt) (s : State), s.free → s.plant.pru.find? n.toNat = some p →
    (∀ t, p.nextEsc = some t → reached s.env.tick t = true →
      exec (.promptEscalation n) s = .next { s with plant := Plant.judgeViews s.env { s.plant with pru := { s.plant.pru with
        table := s.plant.pru.table.map fun r => if r.number = n.toNat then
          { r with urgency := min 3 (r.urgency + 1), skip1 := false, skip2 := false,
                   nextEsc := r.nextEsc.map fun t => t + ticks r.escEvery } else r } } })
    ∧ ((p.nextEsc = none ∨ ∃ t, p.nextEsc = some t ∧ reached s.env.tick t = false) →
      exec (.promptEscalation n) s = .next s)
    ∧ ((p.deadline = none ∨ ∃ t, p.deadline = some t ∧ reached s.env.tick t = false) →
      exec (.promptDeadlineExpiry n) s = .next s)
    ∧ ∀ t, p.deadline = some t → reached s.env.tick t = true → s.plant.pru.backlog = [] → ∀ closed : Plant → Prop,
      (closed = fun y => exec (.promptDeadlineExpiry n) s = .next { s with plant := y.settle s.env }
        ∧ y.pru.table = s.plant.pru.table.filter (fun r => r.number ≠ n.toNat) ∧ y.pru.backlog = []) →
      ((p.kind = .wrongReel ∨ p.kind = .rackFull ∨ p.kind = .watch) →
        ∃ y : Plant, closed y ∧ y.ltu = s.plant.ltu ∧ y.tcu = s.plant.tcu ∧ y.mou = s.plant.mou ∧ y.dru = s.plant.dru
          ∧ y.out.c = s.plant.out.c)
      ∧ ∀ d, p.kind = .clean → p.owner = .drive d → (s.plant.drive d).state = .cleanDue →
        (s.plant.drive d).bound = none → (s.plant.drive d).offlinePending = false →
        ∃ y : Plant, closed y ∧ y.drive d = { s.plant.drive d with state := .empty }
          ∧ (∀ e, e ≠ d → y.drive e = s.plant.drive e) ∧ y.ltu = s.plant.ltu ∧ y.tcu = s.plant.tcu ∧ y.mou = s.plant.mou)
  ∧ ∀ (n : BitVec 16) (p : Prompt) (at_ : Tick) (t : TaskNo) (m : Task) (s : State), s.free →
    s.plant.pru.find? n.toNat = some p → p.deadline = some at_ → reached s.env.tick at_ = true →
    s.plant.pru.backlog = [] → p.owner = .task t → s.plant.task? t = some m → m.prompt = some p.number →
    (m.state = .opwait ∨ m.state = .demounting) → (∀ u j, s.plant.task? u = some j → j.waiter = none) →
    (∀ c d, (s.plant.drive c).bound = some t → (s.plant.drive d).bound = some t → c = d) →
    ∀ closed : Plant → Prop,
    (closed = fun y => exec (.promptDeadlineExpiry n) s = .next { s with plant := y.settle s.env }
      ∧ y.pru.table = s.plant.pru.table.filter (fun r => r.number ≠ n.toNat) ∧ y.pru.backlog = []
      ∧ ∀ u, u ≠ t → y.task? u = s.plant.task? u) →
    ∀ ended : Plant → Prop,
    (ended = fun y => closed y ∧ y.task? t = none ∧ (∀ q v, y.vol? q = some v → v.bound ≠ some t)
      ∧ (∀ d, (y.drive d).bound ≠ some t) ∧ (∀ l ∈ y.mou.queue, l.owner ≠ .task t)
      ∧ ∀ a h, m.origin = .path a h → m.answered = false → m.pending = none →
          CFrame.status a (some h) .last (.ended .operatorTimeout m.tags) ∈ y.out.c) →
    ((p.kind = .fetch ∨ p.kind = .locate) → ∃ y, ended y
      ∧ ∀ a h, m.requester = some (a, h) →
          CFrame.status a (some h) .last (.dismountEnded .operatorTimeout (m.drive.getD 0)) ∈ y.out.c)
    ∧ (∀ k q v, p.kind = .ring → m.serial = some q → s.plant.vol? q = some v → v.loc = .service k → m.pending = none →
      m.state ≠ .demounting →
      (v.cls = .visitor → ∃ y, ended y)
      ∧ ∀ c, v.cls = .resident → v.home = some c → (s.plant.cell c).occ = .empty → m.cell = none →
        ∃ y j, closed y ∧ y.task? t = some j ∧ j.pending = some .operatorTimeout ∧ j.prompt = none ∧ j.cell = some c
          ∧ (y.cell c).occ = .reserved (some q) t ∧ (∀ d, (y.drive d).bound ≠ some t)
          ∧ (y.vol? q).map (fun w : Volume => w.ring) = some v.ring)
    ∧ (∀ d, p.kind = .threadFail → (s.plant.drive d).bound = some t → (s.plant.drive d).state = .threading →
      (s.plant.drive d).unloadSeen = false →
      ∃ y, closed y
        ∧ y.task? t = some { m with state := .unloading, wait := none, prompt := none, pending := some .operatorTimeout }
        ∧ y.drive d = { s.plant.drive d with state := .unloading, mountOpen := false }
        ∧ (∀ c, c ≠ d → y.drive c = s.plant.drive c) ∧ ∃ l, y.out.m = s.plant.out.m ++ .drive d .unload :: l)
    ∧ ∀ k q v c, p.kind = .ringPull → m.serial = some q → s.plant.vol? q = some v → v.loc = .service k →
      m.state = .demounting → v.cls = .resident → m.cell = none → v.home = some c → (s.plant.cell c).occ = .empty →
      ∃ y j, closed y ∧ y.task? t = some j ∧ j.state = .demounting ∧ j.prompt = none ∧ j.ringKept = true
        ∧ j.cell = some c ∧ (y.cell c).occ = .reserved (some q) t ∧ y.vol? q = some v

/-! ### Audit -/

/-- R196, R203: SET AUDIT MODE with a list other than 1 or 2 or a mode byte that is none of 00h OFF, 01h COMMAND, 02h DOOR,
03h INTERVAL and 04h INTERVAL-ONCE is BAD VALUE; the present
mode changes nothing; another mode is set with the armed mark cleared (and the start pending mark, by the model's reading,
log 16), the other list untouched, the audit interval timer judged afresh (R199), and a live pass ends without a flag: a
PAUSED list is IDLE; of a RUNNING or SUSPENDED one a leg in the queue is removed, a leg in hand between steps ends at once,
and one with a step in flight is to end at that step's completion, the list being IDLE meanwhile with its leg live. At that
completion, of a TRAVEL or of a READ, the leg is live no more, and a pass starts where a trigger waits. R197, R198, R200:
START SWEEP of either list: PAUSED, in any mode, it resumes at its next entry; in COMMAND mode, IDLE, a pass starts or waits
for the leg of the ended one, and with a pass live it is BUSY; in INTERVAL-ONCE mode the armed mark alone is set and the
timer judged; in OFF, DOOR and INTERVAL mode it is WRONG MODE. R199: the audit interval timer's expiry starts the timer
again one interval on if a list still wants it (from the tick of the taking, by the model's choice, log 83), and is a
trigger to every list in INTERVAL and every armed list in INTERVAL-ONCE, list 1 first. That before its tick, or stopped, it
does nothing (log 22), that ACCEPTED goes out after the effects on the tables and before what the accessors then do
(log 51), and that an L2 above 64 starts list 2 past the table (log 48), are the model's choices. -/
def Obligations.AuditModesSweepsAndInterval : Prop :=
  (∀ (m : Byte) (a : AuditMode), auditModeOf m = some a ↔
    (m, a) ∈ [(0#8, AuditMode.off), (1, .command), (2, .door), (3, .interval), (4, .intervalOnce)])
  ∧ (∀ (h : Hdr) (b m : Byte) (s : State), s.manages h →
    ((b = 0 ∨ 2 < b.toNat ∨ 4 < m.toNat) → exec (.setAuditMode h b m) s = .next (s.replied h .badValue .nothing))
    ∧ ∀ (a : AuditMode) (l : ListNo) (c base : ListCtx), auditModeOf m = some a →
      ((b = 1 ∧ l = .one) ∨ (b = 2 ∧ l = .two)) → c = s.plant.list l →
      (c.mode = a → exec (.setAuditMode h b m) s = .next (s.replied h .accepted .nothing))
      ∧ (c.mode ≠ a → base = { c with mode := a, armed := false, startPending := false, state := .idle } →
        ∃ y : Plant, exec (.setAuditMode h b m) s
            = .next (State.settled (({ s with plant := y } : State).replied h .accepted .nothing))
          ∧ (∀ k, k ≠ l → y.list k = s.plant.list k) ∧ s.plant.timerJudged s.env y
          ∧ (y.ltu = s.plant.ltu ∧ y.tcu = s.plant.tcu ∧ y.dru = s.plant.dru ∧ y.pru = s.plant.pru ∧ y.mgu = s.plant.mgu
            ∧ y.out = s.plant.out)
          ∧ ((c.state = .idle ∨ c.state = .paused) → y.list l = base ∧ y.mou = s.plant.mou)
          ∧ ((c.state = .running ∨ c.state = .suspended) →
            ((∃ g ∈ s.plant.mou.queue, g.owner = .audit l) → y.list l = { base with live := false, pos := none }
              ∧ y.mou = { s.plant.mou with queue := s.plant.mou.queue.filter (fun g => g.owner ≠ .audit l) })
            ∧ ∀ o g, (∀ g ∈ s.plant.mou.queue, g.owner ≠ .audit l) → (s.plant.acc o).leg = some g → g.owner = .audit l →
              (∀ i, (s.plant.acc o.other).leg = some i → i.owner ≠ .audit l) →
              y.acc o.other = s.plant.acc o.other ∧ y.mou.queue = s.plant.mou.queue
                ∧ ((s.plant.acc o).step ≠ none → y.list l = base ∧ y.acc o = { s.plant.acc o with ending := true })
                ∧ ((s.plant.acc o).step = none → y.list l = { base with live := false, pos := none }
                  ∧ y.acc o = { s.plant.acc o with
                    leg := none, ending := false, state := if s.env.held then .held else .idle }))))
  ∧ (∀ (a : Acc) (f : InFlight) (l : ListNo) (g : Leg) (i : Instr) (s : State), s.free → (s.plant.acc a).step = some f →
    (s.plant.acc a).leg = some g → g.owner = .audit l → (s.plant.acc a).ending = true →
    ((∃ b, f.kind = .travel b ∧ i = .arrived a f.tag)
      ∨ ∃ b p q rs, f.kind = .read b p q ∧ i = .readDone a f.tag rs ∧ p + rs.length = q + 1) →
    ∃ x y : Plant, exec i s = .next { s with plant := y.settle s.env } ∧ (y.acc a).leg = none ∧ (y.acc a).step = none
      ∧ (y.acc a).ending = false ∧ (y.acc a).state = (if s.env.held then .held else .idle)
      ∧ (∀ k, k ≠ l → y.list k = s.plant.list k)
      ∧ x.list l = { s.plant.list l with live := false, pos := none, counts := (x.list l).counts }
      ∧ ((∃ b, f.kind = .travel b) → (x.list l).counts = (s.plant.list l).counts)
      ∧ ((s.plant.list l).startPending = false → y = x)
      ∧ ((s.plant.list l).startPending = true → x.passStarts s.env l y))
  ∧ (∀ (h : Hdr) (b : Byte) (s : State), s.manages h →
    ((b = 0 ∨ 2 < b.toNat) → exec (.startSweep h b) s = .next (s.replied h .badValue .nothing))
    ∧ ∀ (l : ListNo) (c : ListCtx), ((b = 1 ∧ l = .one) ∨ (b = 2 ∧ l = .two)) → c = s.plant.list l →
      ((c.state = .paused ∨ (c.mode = .command ∧ c.state = .idle)) →
        ∃ y : Plant, s.plant.triggered s.env l y ∧ exec (.startSweep h b) s
          = .next (State.settled (({ s with plant := y } : State).replied h .accepted .nothing)))
      ∧ (c.state ≠ .paused →
        ((c.mode = .off ∨ c.mode = .door ∨ c.mode = .interval) →
          exec (.startSweep h b) s = .next (s.replied h .wrongMode .nothing))
        ∧ (c.mode = .command → c.state ≠ .idle → exec (.startSweep h b) s = .next (s.replied h .busy .nothing))
        ∧ (c.mode = .intervalOnce → ∃ u : Adu, exec (.startSweep h b) s
              = .next (State.settled (({ s with plant := { s.plant with adu := u } } : State).replied h .accepted .nothing))
            ∧ ({ s.plant with adu := u } : Plant).list l = { c with armed := true }
            ∧ (∀ k, k ≠ l → ({ s.plant with adu := u } : Plant).list k = s.plant.list k)
            ∧ u.timer = some (s.plant.adu.timer.getD (s.env.tick + ticks s.env.set.auditInterval)))))
  ∧ (∀ s : State, s.free →
    (s.plant.adu.timer = none → exec .auditIntervalExpiry s = .next s)
    ∧ ∀ t, s.plant.adu.timer = some t →
      (reached s.env.tick t = false → exec .auditIntervalExpiry s = .next s)
      ∧ (reached s.env.tick t = true → s.plant.mgu.lib ≠ .starting →
        ∃ x y z : Plant, exec .auditIntervalExpiry s = .next { s with plant := z.settle s.env }
          ∧ x = { s.plant with adu := { s.plant.adu with timer := x.adu.timer } }
          ∧ ((s.plant.adu.list1.timed ∨ s.plant.adu.list2.timed) →
              x.adu.timer = some (s.env.tick + ticks s.env.set.auditInterval))
          ∧ ((¬ s.plant.adu.list1.timed ∧ ¬ s.plant.adu.list2.timed) → x.adu.timer = none)
          ∧ (s.plant.adu.list1.timed → x.triggered s.env .one y) ∧ (¬ s.plant.adu.list1.timed → y = x)
          ∧ (s.plant.adu.list2.timed → y.triggered s.env .two z) ∧ (¬ s.plant.adu.list2.timed → z = y)))

/-- R102, R204–R208: the READ-DONE of an audit leg's one position. EMPTY where a volume was believed makes it UNKNOWN, the
cell EMPTY and the missing count one more; UNREADABLE makes the cell SUSPECT, the volume UNKNOWN and the unreadable count
one more. A serial of the table, unbound: read where it is located, nothing moves; located in another cell, at OUTSIDE or
UNKNOWN, it is located in the cell read, a former cell becomes EMPTY, a volume believed in the cell read UNKNOWN, the
misfiled count rises where that cell is not its home, and with no task for it at once a resident keeps its refile pending
mark and a visitor draws a RECOVERY request; WATCH sets WATCH-SEEN. Bound to a task that waits on a FETCH or LOCATE prompt
for it, that prompt is RESOLVED and the task goes on without FETCHED. A serial not in the table, or of a volume in a
drive, gripper, slot or rack, makes the cell FOREIGN, the foreign count one more and, where no prompt names the cell, asks
for a FOREIGN prompt with the cell and the serial. A cell that is RESERVED, or the source of a task's leg that the other
accessor has taken and not yet picked, is skipped: the skipped count alone rises. Every other reading adds one to the read count. The step ends and the leg goes on
past the position. The other list stays as it is. A cell whose leg waits in the queue, a volume whose leg stands in the way,
the prompts a cell already has, and the REFILE task made at once are in AuditReadingsMeetTasksPromptsAndRefiles; a READ of
several positions, and the end of a leg, in AuditReadsGoOnPositionByPosition. -/
def Obligations.AuditReadingsCorrectTheCell : Prop :=
  ∀ (a : Acc) (i : ListNo) (f : InFlight) (b p : Nat) (l : Leg) (r : Reading) (s : State), s.free →
    (s.plant.acc a).step = some f → f.kind = .read b p p → (s.plant.acc a).leg = some l → l.owner = .audit i →
    p ≤ l.last → l.last ≤ 15 → (s.plant.acc a).ending = false →
    (∀ (o : Occ) (n : Counts), o = (s.plant.cell (b * 16 + p)).occ → n = (s.plant.list i).counts →
    (∀ g ∈ s.plant.mou.queue, g.cls = .audit ∧ ∃ m, g.owner = .audit m) → s.plant.pru.table = [] →
    s.plant.pru.backlog = [] → s.plant.pru.later = none → ∀ read : Plant → Counts → Prop,
    (read = fun y k => exec (.readDone a f.tag [r]) s = .next { s with plant := y.settle s.env }
      ∧ (y.list i).counts = k ∧ (∀ m, m ≠ i → y.list m = s.plant.list m) ∧ (y.acc a).step = none
      ∧ (p < l.last → (y.acc a).leg = some { l with pos := p + 1, steps := l.steps + 1 }
          ∧ y.list i = { s.plant.list i with pos := some (p + 1), counts := k })) →
    ((s.plant.acc a.other).leg = none → (o = .empty ∨ o = .foreign ∨ o = .suspect ∨ ∃ q, o = .occupied q) →
      (∀ q, o = .occupied q ↔ (s.plant.vol? q).map (fun v : Volume => v.loc) = some (.cell (b * 16 + p))) →
      (∀ v ∈ s.plant.ltu.volumes, v.loc = .cell (b * 16 + p) → o = .occupied v.serial) →
      ((r = .empty ∨ r = .unreadable) →
        ∃ y : Plant, read y (if r = .unreadable then { n with read := n.read + 1, unreadable := n.unreadable + 1 }
            else if ∃ q, o = .occupied q then { n with read := n.read + 1, missing := n.missing + 1 }
            else { n with read := n.read + 1 })
          ∧ (y.cell (b * 16 + p)).occ = (if r = .empty then .empty else .suspect)
          ∧ (∀ c, c ≠ b * 16 + p → y.cell c = s.plant.cell c)
          ∧ (∀ q, o = .occupied q → ∀ v, s.plant.vol? q = some v →
              y.vol? q = some { v with loc := .unknown, misfiled := false, refilePending := false })
          ∧ (∀ q, o ≠ .occupied q → y.vol? q = s.plant.vol? q) ∧ y.dru = s.plant.dru ∧ y.tcu = s.plant.tcu)
      ∧ (∀ q v, r = .serial q → s.plant.vol? q = some v → v.loc = .cell (b * 16 + p) →
        ∃ y : Plant, read y { n with read := n.read + 1 } ∧ y.ltu = s.plant.ltu ∧ y.tcu = s.plant.tcu ∧ y.dru = s.plant.dru
          ∧ (v.watch = true → (y.mgu.flags.get EventFlag.watchSeen.index).isSet = true))
      ∧ (∀ q v, r = .serial q → s.plant.vol? q = some v →
        ((∃ c, v.loc = .cell c ∧ c ≠ b * 16 + p) ∨ v.loc = .outside ∨ v.loc = .unknown) →
        (∀ c, v.loc = .cell c → (s.plant.cell c).occ = .occupied q) →
        ∀ (moved : Plant → Prop), (moved = fun y =>
            read y (if v.home = some (b * 16 + p) then { n with read := n.read + 1 }
              else { n with read := n.read + 1, misfiled := n.misfiled + 1 })
            ∧ (y.cell (b * 16 + p)).occ = .occupied q ∧ y.dru = s.plant.dru
            ∧ (∀ c, v.loc = .cell c → (y.cell c).occ = .empty)
            ∧ (∀ z w, o = .occupied z → s.plant.vol? z = some w →
                y.vol? z = some { w with loc := .unknown, misfiled := false, refilePending := false })
            ∧ (v.watch = true → (y.mgu.flags.get EventFlag.watchSeen.index).isSet = true)) →
          (v.bound = none → v.cls = .resident →
            ((∀ c, v.home = some c → (s.plant.cell c).occ ≠ .empty ∧ v.loc ≠ .cell c) ∨ v.home = some (b * 16 + p)) →
            ∃ y w, moved y ∧ y.vol? q = some w
              ∧ w = { v with loc := .cell (b * 16 + p), misfiled := w.misfiled, refilePending := w.refilePending }
              ∧ (w.misfiled = true ↔ v.home ≠ some (b * 16 + p)) ∧ w.refilePending = w.misfiled
              ∧ y.tcu = s.plant.tcu)
          ∧ (v.bound = none → v.cls = .visitor → v.misfiled = false → v.refilePending = false →
            ∃ y, moved y ∧ y.vol? q = some { v with loc := .cell (b * 16 + p) }
              ∧ Request.cell q ∈ y.tcu.requests ∧ y.tcu.tasks = s.plant.tcu.tasks))
      ∧ ∀ q, r = .serial q →
        (s.plant.vol? q = none ∨ ∃ v, s.plant.vol? q = some v ∧ ((∃ d, v.loc = .drive d) ∨ (∃ g, v.loc = .gripper g)
          ∨ (∃ h, v.loc = .handoff h) ∨ (∃ e, v.loc = .entry e) ∨ ∃ e, v.loc = .service e)) →
        ∃ y g, read y { n with read := n.read + 1, foreign := n.foreign + 1 } ∧ (y.cell (b * 16 + p)).occ = .foreign
          ∧ (∀ c, c ≠ b * 16 + p → y.cell c = s.plant.cell c) ∧ y.pru.table = [g] ∧ g.kind = .foreign
          ∧ g.owner = .acc a ∧ g.params = { cell := some (b * 16 + p), ser2 := some q }
          ∧ (∀ z w, o = .occupied z → s.plant.vol? z = some w →
              y.vol? z = some { w with loc := .unknown, misfiled := false, refilePending := false })
          ∧ (∀ z, o ≠ .occupied z → y.vol? z = s.plant.vol? z) ∧ y.dru = s.plant.dru ∧ y.tcu = s.plant.tcu)
    ∧ (((∃ q t, o = .reserved q t)
        ∨ ∃ g t, (s.plant.acc a.other).leg = some g ∧ g.owner = .task t ∧ g.picked = false ∧ g.src = .cell (b * 16 + p)) →
      ∃ y : Plant, read y { n with skipped := n.skipped + 1 } ∧ y.ltu = s.plant.ltu ∧ y.tcu = s.plant.tcu
        ∧ y.dru = s.plant.dru ∧ y.pru = s.plant.pru))
    ∧ (∀ (q : Serial) (v : Volume) (t : TaskNo) (k : Task) (d : DriveNo) (g : Prompt), r = .serial q →
      (∀ m u, (s.plant.cell (b * 16 + p)).occ ≠ .reserved m u) →
      (s.plant.acc a.other).leg = none → s.plant.mou.queue = [] → s.plant.vol? q = some v →
      (v.loc = .outside ∨ v.loc = .unknown) → v.cls = .visitor → v.bound = some t → s.plant.task? t = some k →
      k.serial = some q → (k.kind = .mount ∨ k.kind = .mountScratch) → k.intent = .read → k.state = .opwait →
      k.pending = none → k.drive = some d → (s.plant.drive d).state = .reserved → s.plant.pru.table = [g] →
      s.plant.pru.backlog = [] → s.plant.pru.later = none → (g.kind = .fetch ∨ g.kind = .locate) → g.params.cell = none →
      k.prompt = some g.number → (∀ u m, s.plant.task? u = some m → m.waiter = none) →
      (capable .A (.cell (b * 16 + p)) (.drive d) = true ∨ capable .B (.cell (b * 16 + p)) (.drive d) = true) →
      ∃ (y : Plant) (w : Volume) (j : Task), exec (.readDone a f.tag [r]) s = .next { s with plant := y.settle s.env } ∧ y.pru.table = []
        ∧ y.vol? q = some w ∧ w.loc = .cell (b * 16 + p) ∧ w.bound = some t
        ∧ (y.cell (b * 16 + p)).occ = .occupied q ∧ y.task? t = some j ∧ j.prompt = none ∧ j.tags = k.tags
        ∧ ∃ m ∈ y.mou.queue, m.owner = .task t ∧ m.src = .cell (b * 16 + p) ∧ m.dst = some (.drive d))

/-- What the reading of one position (`Plant.judgeReading`, by which a READ-DONE is taken: AuditReadsGoOnPositionByPosition)
does where it meets tasks, prompts and refiles. R204: a cell that is RESERVED, the source of a task's leg in the queue, or
the source of a leg in hand that is not picked, is skipped, and so is the serial of a bound volume in another such cell in
hand: the skipped count rises and nothing else changes. Every other reading counts as read. R207: a bound volume read
away from the cell it was located in, whose task's leg from that cell waits in the queue, is located in the cell read, and the
leg gives way to one from there to where the task was bound, the cell reservation kept and a reserved handoff slot given up
where one accessor can make the movement. One whose task has no leg from its cell and waits on no FETCH or LOCATE prompt
(R207's third and fourth cases) is located in the cell read, and the task, the legs and the drives stay. A bound resident
read away from its home has its refile pending mark. R208: a FOREIGN prompt that names the cell, open or backlogged, stays
where the reading is the serial it names; another such serial closes it and opens one that names that serial; EMPTY,
UNREADABLE, or a volume of the table now located here closes it. R206, R76: an unbound resident read in a cell that is not its
home, with its home EMPTY or just left and 8 records free, gets its REFILE task at once: bound to it, the home reserved, and,
where one accessor can make the movement, its leg queued. Which free record it is stays open (log 10). -/
def Obligations.AuditReadingsMeetTasksPromptsAndRefiles : Prop :=
  ∀ (e : Env) (a : Acc) (i : ListNo) (c : CellNo) (r : Reading) (x y : Plant), y = x.judgeReading e a i c r →
    x.pru.later = none → ∀ (n : Counts), n = (x.list i).counts → ∀ inHand skipped counted,
    (inHand = fun q : CellNo => ∃ b g, (x.acc b).leg = some g ∧ (∀ m, g.owner ≠ .audit m) ∧ g.picked = false
      ∧ g.src = .cell q) →
    (skipped = ((∃ q t, (x.cell c).occ = .reserved q t) ∨ (∃ g ∈ x.mou.queue, (∃ t, g.owner = .task t) ∧ g.src = .cell c)
      ∨ inHand c ∨ ∃ q v d, r = .serial q ∧ x.vol? q = some v ∧ v.bound ≠ none ∧ v.loc = .cell d ∧ d ≠ c ∧ inHand d)) →
    (counted = fun k => (y.list i) = { x.list i with counts := k } ∧ ∀ m, m ≠ i → y.list m = x.list m) →
    (skipped → counted { n with skipped := n.skipped + 1 } ∧ y = { x with adu := y.adu })
    ∧ (¬ skipped → (y.list i).counts.read = n.read + 1 ∧ (y.list i).counts.skipped = n.skipped
      ∧ ∀ away : Volume → Prop,
        (away = fun v => (∃ d, v.loc = .cell d ∧ d ≠ c) ∨ v.loc = .outside ∨ v.loc = .unknown) →
        (∀ q v t k, r = .serial q → x.vol? q = some v → away v → v.bound = some t → x.task? t = some k → k.serial = some q →
          (∀ p, k.prompt = some p → (∀ g ∈ x.pru.table, g.number = p → g.kind ≠ .fetch ∧ g.kind ≠ .locate)
            ∧ ∀ g ∈ x.pru.backlog, g.number = p → g.kind ≠ .fetch ∧ g.kind ≠ .locate) →
          ((∀ g ∈ x.mou.queue, g.owner = .task t → ∀ d, v.loc = .cell d → g.src ≠ .cell d)
            ∨ ∀ u m, x.task? u = some m → m.waiter = none) →
          (∃ w, y.vol? q = some w ∧ w = { v with loc := .cell c, misfiled := w.misfiled, refilePending := w.refilePending }
              ∧ (w.misfiled = true ↔ (v.cls = .resident ∧ v.home ≠ some c)) ∧ w.refilePending = w.misfiled)
          ∧ (y.cell c).occ = .occupied q ∧ y.dru = x.dru
          ∧ (∀ d, v.loc = .cell d → (x.cell d).occ = .occupied q → (y.cell d).occ = .empty)
          ∧ counted (if v.home = some c then { n with read := n.read + 1 }
              else { n with read := n.read + 1, misfiled := n.misfiled + 1 })
          ∧ ((∀ g ∈ x.mou.queue, g.owner = .task t → ∀ d, v.loc = .cell d → g.src ≠ .cell d) →
              y.tcu = x.tcu ∧ y.mou.queue = x.mou.queue ∧ ∀ b, (y.acc b).leg = (x.acc b).leg)
          ∧ ∀ d g w dst, v.loc = .cell d → g ∈ x.mou.queue → g.owner = .task t → g.src = .cell d → k.work = some w →
            (∀ b l, (x.acc b).leg = some l → l.owner ≠ .task t) → (∀ u m, x.task? u = some m → m.waiter = none) →
            (capable .A (.cell c) dst = true ∨ capable .B (.cell c) dst = true) →
            ((w = .toDrive ∧ ∃ f, k.drive = some f ∧ dst = .drive f ∧ (x.drive f).state = .reserved)
              ∨ (w = .store ∧ ∃ f, k.cell = some f ∧ dst = .cell f)) →
            (∃ m ∈ y.mou.queue, m.owner = .task t ∧ m.src = .cell c ∧ m.dst = some dst ∧ m.onward = none
                ∧ m.picked = false ∧ ∀ l ∈ y.mou.queue, l.owner = .task t → l = m)
              ∧ (∀ l, l.owner ≠ .task t → (l ∈ y.mou.queue ↔ l ∈ x.mou.queue))
              ∧ (∃ j, y.task? t = some j ∧ j.cell = k.cell ∧ j.drive = k.drive ∧ j.tags = k.tags)
              ∧ (∀ h, k.handoff = some h → x.handoff h = Slot.reserve t → y.handoff h = Slot.clear)
              ∧ ∀ u, u ≠ t → y.task? u = x.task? u)
        ∧ (∀ (p : Prompt) (o : Option Serial), p ∈ x.pru.table → p.kind = .foreign → p.params.cell = some c →
          o = p.params.ser2 → (∀ g ∈ x.pru.table, g.kind = .foreign → g.params.cell = some c → g = p) →
          ∀ l, l = x.pru.table.filter (fun g => g.number ≠ p.number) →
          (∀ q, r = .serial q → (x.vol? q = none ∨ ∃ v, x.vol? q = some v ∧ ¬ away v ∧ v.loc ≠ .cell c) →
            (o = some q → y.pru = x.pru)
            ∧ (o ≠ some q → x.pru.backlog = [] → x.pru.table.length ≤ 32 → ∃ g, y.pru.table = l ++ [g] ∧ y.pru.backlog = []
              ∧ g.kind = .foreign ∧ g.owner = .acc a ∧ g.params = { cell := some c, ser2 := some q }))
          ∧ (x.pru.backlog = [] → ((r = .empty ∨ r = .unreadable)
              ∨ ∃ q v, r = .serial q ∧ x.vol? q = some v ∧ away v ∧ v.bound = none) →
            y.pru.table = l ∧ y.pru.backlog = []))
        ∧ (∀ (p : PromptRequest), p ∈ x.pru.backlog → p.kind = .foreign → p.params.cell = some c → x.pru.table.length = 32 →
          (∀ g ∈ x.pru.table, g.kind = .foreign → g.params.cell ≠ some c) → (∀ g ∈ x.pru.table, g.number ≠ p.number) →
          (∀ g ∈ x.pru.backlog, g.kind = .foreign → g.params.cell = some c → g = p) →
          (∀ q, r = .serial q → x.vol? q = none → p.params.ser2 = some q → y.pru = x.pru)
          ∧ ((r = .empty ∨ r = .unreadable) →
            y.pru.table = x.pru.table ∧ y.pru.backlog = x.pru.backlog.filter fun g => g.number ≠ p.number))
        ∧ ∀ q v h, r = .serial q → x.vol? q = some v → away v → v.bound = none → v.cls = .resident → v.home = some h → h ≠ c →
          ((x.cell h).occ = .empty ∨ (v.loc = .cell h ∧ (x.cell h).occ = .occupied q)) →
          8 ≤ ((List.finRange 48).filter fun t => x.task? t = none).length →
          counted { n with read := n.read + 1, misfiled := n.misfiled + 1 }
          ∧ ∃ t k w, x.task? t = none ∧ y.task? t = some k ∧ k.kind = .refile ∧ k.origin = .internal ∧ k.serial = some q
            ∧ k.cell = some h ∧ (y.cell h).occ = .reserved (some q) t ∧ (y.cell c).occ = .occupied q ∧ y.vol? q = some w
            ∧ w = { v with loc := .cell c, misfiled := true, refilePending := false, bound := some t }
            ∧ (∀ u, u ≠ t → y.task? u = x.task? u) ∧ y.dru = x.dru
            ∧ ((capable .A (.cell c) (.cell h) = true ∨ capable .B (.cell c) (.cell h) = true) →
              ∃ g ∈ y.mou.queue, g.owner = .task t ∧ g.src = .cell c ∧ g.dst = some (.cell h) ∧ g.cls = .refile))

/-- R102, R204: a READ-DONE of several positions is judged position by position, the first first, each as the reading of one
position is (AuditReadingsCorrectTheCell), on what the one before it left, with the leg and the list standing past the
last of them already. R103, R202: then, with positions left, the leg goes on, or, where the queue holds a leg
of a class above AUDIT that this accessor may take, it goes back to the queue with its age and its next position, the list is
SUSPENDED and the accessor is IDLE (HELD under a hold). R194, R200, R201: with the last position read the leg ends and the
entry completes: the next entry is taken up, or the pause mark makes the list PAUSED and sets its flag, or the list ends (at an
END entry, past the table, and list 1 at the boundary L2), with DONE set, after PAUSED where the entry carries the
mark. R102: a READ is sent from the leg's next position to its last, or for one position while such a leg
waits. -/
def Obligations.AuditReadsGoOnPositionByPosition : Prop :=
  (∀ (a : Acc) (i : ListNo) (f : InFlight) (b p q : Nat) (l : Leg) (rs : List Reading) (s : State), s.free →
    (s.plant.acc a).step = some f → f.kind = .read b p q → (s.plant.acc a).leg = some l → l.owner = .audit i →
    p ≤ q → q ≤ l.last → l.last ≤ 15 → rs.length = q + 1 - p → (s.plant.acc a).ending = false →
    ∀ (g : Leg) (z : Nat → Plant), g = { l with pos := q + 1, steps := l.steps + 1 } →
    z 0 = (s.plant.updAcc a fun c => { c with step := none, leg := some g }).updList i
      (fun c => { c with pos := some (min 15 (q + 1)) }) →
    (∀ n (h : n < rs.length), z (n + 1) = (z n).judgeReading s.env a i (b * 16 + (p + n)) rs[n]) → ∀ y, y = z rs.length →
    (q < l.last → (∀ m ∈ y.mou.queue, m.cls ≠ .audit → y.mayTake a m = false) →
      exec (.readDone a f.tag rs) s = .next { s with plant := y.settle s.env })
    ∧ (q < l.last → (∃ m ∈ y.mou.queue, m.cls ≠ .audit ∧ y.mayTake a m = true) →
      ∃ (w : Plant) (u v : List Leg), exec (.readDone a f.tag rs) s = .next { s with plant := w.settle s.env }
        ∧ y.mou.queue = u ++ v ∧ w.mou.queue = u ++ g :: v ∧ (∀ m ∈ u, g.before s.env.tick m = false)
        ∧ w.list i = { y.list i with state := .suspended, pos := some (q + 1) } ∧ (∀ m, m ≠ i → w.list m = y.list m)
        ∧ (w.acc a).leg = none ∧ (w.acc a).step = none ∧ (w.acc a).state = (if s.env.held then .held else .idle)
        ∧ w.ltu = y.ltu ∧ w.tcu = y.tcu ∧ w.dru = y.dru ∧ w.pru = y.pru ∧ w.mgu = y.mgu)
    ∧ ∀ c : ListCtx, c = s.plant.list i → q = l.last → ∀ done : Prop,
      (done = (64 ≤ c.next + 1 ∨ (i = .one ∧ c.next + 1 = s.env.set.l2)
        ∨ ∃ h : c.next + 1 < 64, s.env.set.sweep.get ⟨c.next + 1, h⟩ = .fin)) →
      ∃ w : Plant, exec (.readDone a f.tag rs) s = .next { s with plant := w.settle s.env }
        ∧ (w.acc a).step = none ∧ (w.acc a).leg = none ∧ (w.acc a).state = (if s.env.held then .held else .idle)
        ∧ (w.list i).next = c.next + 1 ∧ (w.list i).mode = c.mode ∧ (w.list i).counts = (y.list i).counts
        ∧ (∀ m, m ≠ i → w.list m = y.list m) ∧ w.ltu = y.ltu ∧ w.tcu = y.tcu ∧ w.dru = y.dru ∧ w.pru = y.pru
        ∧ (c.pause = true → (w.mgu.flags.get i.pausedFlag.index).isSet = true)
        ∧ (done → (w.list i).state = .idle ∧ (w.list i).live = false ∧ (w.list i).pos = none
            ∧ (w.list i).armed = false ∧ (w.mgu.flags.get i.doneFlag.index).isSet = true ∧ w.mou.queue = y.mou.queue
            ∧ (c.pause = true → (w.mgu.flags.get i.pausedFlag.index).gen + 1 = (w.mgu.flags.get i.doneFlag.index).gen
              ∨ (w.mgu.flags.get i.pausedFlag.index).gen = 4294967295))
        ∧ (¬ done → c.pause = true → (w.list i).state = .paused ∧ (w.list i).live = false ∧ (w.list i).pos = none
            ∧ (w.list i).armed = c.armed ∧ w.mou.queue = y.mou.queue)
        ∧ (¬ done → c.pause = false → ∀ h : c.next + 1 < 64, ∀ b2 f2 l2 w2,
            s.env.set.sweep.get ⟨c.next + 1, h⟩ = .range b2 f2 l2 w2 →
            (w.list i).state = .running ∧ (w.list i).live = true ∧ (w.list i).pos = some f2
            ∧ ∃ m ∈ w.mou.queue, m.owner = .audit i ∧ m.cls = .audit ∧ m.bay = b2 ∧ m.pos = f2 ∧ m.last = l2))
  ∧ ∀ (e : Env) (a : Acc) (i : ListNo) (l : Leg) (x : Plant), (x.acc a).step = none → (x.acc a).leg = some l →
    l.owner = .audit i → (x.acc a).bay = some l.bay → e.held = false → (x.acc a).state = .stepping →
    (x.acc a).ending = false →
    (x.yielding a = true → 48 ≤ l.bay ∧ l.bay ≤ 79) →
    ∀ waits : Prop, (waits = ∃ m ∈ x.mou.queue, m.cls ≠ .audit ∧ x.mayTake a m = true) →
    (¬ waits → x.act e a = some (x.sendStep e a (.read l.bay l.pos l.last)))
    ∧ (waits → x.act e a = some (x.sendStep e a (.read l.bay l.pos l.pos)))

/-! ### The links -/

/-- R211, R213, R229, R230: a frame of a class the far side of a link sends, from an address that sends it, with a
payload of its kind's form and at most 128 bytes, is received, after its start delimiter, as exactly its class,
address and payload: no byte of it is lost to the escape or the check word; numbers are read back from their bytes. A
frame whose last two bytes are not the check word of its body is malformed and gives the MALFORMED FRAME command, and so is one
longer than 128 bytes, of a class the far side does not send, from a station that does not send it, or with a payload that
is not of its kind's form. The check word is the CRC-16 of R211: it starts from all ones, takes each byte from its highest
bit, dividing by the polynomial (1021h below its x^16), and a body with its check word after it leaves 0. Which codes are which classes on each link, and which stations send them, are R230's and R212's.
That a C-link address is not judged by check 5 is the model's reading (log 57). -/
def Obligations.FramesAreReceivedAsSent : Prop :=
  (∀ (l : Link) (f : Frame) (c : ClassIn), f.payload.length ≤ 128 → classIn l f.cls = some c →
    addressOk c f.address = true → payloadOk c f.address f.payload = true →
    ∃ t, f.sent = startByte :: t ∧ judgeFrame l t = .frame c f.address f.payload)
  ∧ ((∀ (l : Link) (f : Frame) (c d : List Byte), c.length = 2 → d = escapeBytes (f.body ++ c) →
    ((f.payload.length ≤ 128 → c ≠ beBytes 2 (crc16 f.body).toNat →
        judgeFrame l d = .malformed ∧ commandOf l d = some (.malformedFrame l d))
      ∧ (128 < f.payload.length → f.payload.length < 256 → judgeFrame l d = .malformed)
      ∧ ((classIn l f.cls = none ∨ ∃ k, classIn l f.cls = some k
          ∧ (addressOk k f.address = false ∨ payloadOk k f.address f.payload = false)) →
        f.payload.length ≤ 128 → judgeFrame l d = .malformed)))
  ∧ (∀ bs : List Byte, crc16 (bs ++ beBytes 2 (crc16 bs).toNat) = 0)
  ∧ (crc16 [] = 0xFFFF ∧ ∀ (bs : List Byte) (b : Byte), ∃ r : Nat → BitVec 16,
    r 0 = crc16 bs ^^^ (b.setWidth 16 <<< 8) ∧ crc16 (bs ++ [b]) = r 8
    ∧ ∀ k < 8, r (k + 1) = (r k <<< 1) ^^^ (if (r k).getLsbD 15 = true then 0x1021 else 0))
  ∧ (∀ (b : Byte) (k : ClassIn), (classIn .C b = some k ↔ (b, k) ∈ [(0x01#8, ClassIn.order), (0x02, .mgmt)])
    ∧ (classIn .M b = some k ↔
      (b, k) ∈ [(0x91#8, ClassIn.stepReport), (0x92, .driveReport), (0x94, .key), (0x95, .sensor)]))
  ∧ ∀ a : Byte, (addressOk .stepReport a = true ↔ a.toNat ∈ [1, 2])
    ∧ (addressOk .driveReport a = true ↔ 32 ≤ a.toNat ∧ a.toNat ≤ 63)
    ∧ (addressOk .key a = true ↔ a.toNat ∈ [4, 5]) ∧ (addressOk .sensor a = true ↔ a.toNat = 6))
  ∧ (∀ bs : List Byte, unescape (escapeBytes bs) = (bs, .open_) ∧ startByte ∉ escapeBytes bs)
  ∧ ∀ (w n : Nat), n < 256 ^ w → beValue (beBytes w n) = n ∧ (beBytes w n).length = w
end

