-- ==== Sys2Proof/Laws/State.lean ====
section
/-!
SUPPORT. What each state update leaves and changes, field by field.
-/
namespace Sys2Proof.Machine

/-! ### Actions on the state -/

@[simp] theorem State.plantly_env (f : Env → Plant → Plant) (s : State) : (s.plantly f).env = s.env := rfl
@[simp] theorem State.plantly_oiu (f : Env → Plant → Plant) (s : State) : (s.plantly f).oiu = s.oiu := rfl
@[simp] theorem State.plantly_acu (f : Env → Plant → Plant) (s : State) : (s.plantly f).acu = s.acu := rfl
@[simp] theorem State.plantly_plant (f : Env → Plant → Plant) (s : State) : (s.plantly f).plant = f s.env s.plant := rfl
@[simp] theorem State.plantly_pending (f : Env → Plant → Plant) (s : State) : (s.plantly f).pending = s.pending := rfl

@[simp] theorem State.moving_env (f : Env → Plant → Plant) (s : State) : (s.moving f).env = s.env := by simp only [State.moving]
@[simp] theorem State.moving_oiu (f : Env → Plant → Plant) (s : State) : (s.moving f).oiu = s.oiu := by simp only [State.moving]
@[simp] theorem State.moving_acu (f : Env → Plant → Plant) (s : State) : (s.moving f).acu = s.acu := by simp only [State.moving]
@[simp] theorem State.moving_plant (f : Env → Plant → Plant) (s : State) : (s.moving f).plant = (f s.env s.plant).settle s.env := by simp only [State.moving]
@[simp] theorem State.moving_pending (f : Env → Plant → Plant) (s : State) : (s.moving f).pending = s.pending := by simp only [State.moving]

@[simp] theorem State.settled_env (s : State) : (s.settled).env = s.env := by simp only [State.settled]
@[simp] theorem State.settled_oiu (s : State) : (s.settled).oiu = s.oiu := by simp only [State.settled]
@[simp] theorem State.settled_acu (s : State) : (s.settled).acu = s.acu := by simp only [State.settled]
@[simp] theorem State.settled_plant (s : State) : (s.settled).plant = s.plant.settle s.env := by simp only [State.settled]
@[simp] theorem State.settled_pending (s : State) : (s.settled).pending = s.pending := by simp only [State.settled]

@[simp] theorem State.say_env (h : Hdr) (r : Reply) (c : Contents) (s : State) : (s.say h r c).env = s.env := rfl
@[simp] theorem State.say_oiu (h : Hdr) (r : Reply) (c : Contents) (s : State) : (s.say h r c).oiu = s.oiu := rfl
@[simp] theorem State.say_acu (h : Hdr) (r : Reply) (c : Contents) (s : State) : (s.say h r c).acu = s.acu := rfl
@[simp] theorem State.say_plant (h : Hdr) (r : Reply) (c : Contents) (s : State) : (s.say h r c).plant = s.plant.reply h r c := rfl
@[simp] theorem State.say_pending (h : Hdr) (r : Reply) (c : Contents) (s : State) : (s.say h r c).pending = s.pending := rfl

@[simp] theorem State.accept_env (h : Hdr) (s : State) : (s.accept h).env = s.env := rfl
@[simp] theorem State.accept_oiu (h : Hdr) (s : State) : (s.accept h).oiu = s.oiu := rfl
@[simp] theorem State.accept_acu (h : Hdr) (s : State) : (s.accept h).acu = s.acu := rfl
@[simp] theorem State.accept_plant (h : Hdr) (s : State) : (s.accept h).plant = s.plant.reply h .accepted .nothing := rfl
@[simp] theorem State.accept_pending (h : Hdr) (s : State) : (s.accept h).pending = s.pending := rfl

@[simp] theorem State.show_env (h : Hdr) (c : Contents) (s : State) : (s.show h c).env = s.env := rfl
@[simp] theorem State.show_oiu (h : Hdr) (c : Contents) (s : State) : (s.show h c).oiu = s.oiu := rfl
@[simp] theorem State.show_acu (h : Hdr) (c : Contents) (s : State) : (s.show h c).acu = s.acu := rfl
@[simp] theorem State.show_plant (h : Hdr) (c : Contents) (s : State) : (s.show h c).plant = s.plant.reply h .data c := rfl
@[simp] theorem State.show_pending (h : Hdr) (c : Contents) (s : State) : (s.show h c).pending = s.pending := rfl

@[simp] theorem State.setting_env (h : Hdr) (f : Settings → Settings) (s : State) : (s.setting h f).env = { s.env with set := f s.env.set } := rfl
@[simp] theorem State.setting_oiu (h : Hdr) (f : Settings → Settings) (s : State) : (s.setting h f).oiu = s.oiu := rfl
@[simp] theorem State.setting_acu (h : Hdr) (f : Settings → Settings) (s : State) : (s.setting h f).acu = s.acu := rfl
@[simp] theorem State.setting_plant (h : Hdr) (f : Settings → Settings) (s : State) : (s.setting h f).plant = s.plant.reply h .accepted .nothing := rfl
@[simp] theorem State.setting_pending (h : Hdr) (f : Settings → Settings) (s : State) : (s.setting h f).pending = s.pending := rfl

@[simp] theorem State.toOrder_env (h : Hdr) (m : Mark) (st : Status) (s : State) : (s.toOrder h m st).env = s.env := rfl
@[simp] theorem State.toOrder_oiu (h : Hdr) (m : Mark) (st : Status) (s : State) : (s.toOrder h m st).oiu = s.oiu := rfl
@[simp] theorem State.toOrder_acu (h : Hdr) (m : Mark) (st : Status) (s : State) : (s.toOrder h m st).acu = s.acu := rfl
@[simp] theorem State.toOrder_plant (h : Hdr) (m : Mark) (st : Status) (s : State) : (s.toOrder h m st).plant = s.plant.status h.path (some h.tag) m st := rfl
@[simp] theorem State.toOrder_pending (h : Hdr) (m : Mark) (st : Status) (s : State) : (s.toOrder h m st).pending = s.pending := rfl

@[simp] theorem State.final_env (h : Hdr) (st : Status) (s : State) : (s.final h st).env = s.env := rfl
@[simp] theorem State.final_oiu (h : Hdr) (st : Status) (s : State) : (s.final h st).oiu = s.oiu := rfl
@[simp] theorem State.final_acu (h : Hdr) (st : Status) (s : State) : (s.final h st).acu = s.acu := rfl
@[simp] theorem State.final_plant (h : Hdr) (st : Status) (s : State) : (s.final h st).plant = s.plant.status h.path (some h.tag) .last st := rfl
@[simp] theorem State.final_pending (h : Hdr) (st : Status) (s : State) : (s.final h st).pending = s.pending := rfl

@[simp] theorem State.pathStatus_env (p : Path) (st : Status) (s : State) : (s.pathStatus p st).env = s.env := rfl
@[simp] theorem State.pathStatus_oiu (p : Path) (st : Status) (s : State) : (s.pathStatus p st).oiu = s.oiu := rfl
@[simp] theorem State.pathStatus_acu (p : Path) (st : Status) (s : State) : (s.pathStatus p st).acu = s.acu := rfl
@[simp] theorem State.pathStatus_plant (p : Path) (st : Status) (s : State) : (s.pathStatus p st).plant = s.plant.status p none .path st := rfl
@[simp] theorem State.pathStatus_pending (p : Path) (st : Status) (s : State) : (s.pathStatus p st).pending = s.pending := rfl

@[simp] theorem State.setQueue_env (p : Path) (q : List QOrder) (s : State) : (s.setQueue p q).env = s.env := rfl
@[simp] theorem State.setQueue_oiu (p : Path) (q : List QOrder) (s : State) : (s.setQueue p q).oiu = { s.oiu with queues := vset s.oiu.queues p q } := rfl
@[simp] theorem State.setQueue_acu (p : Path) (q : List QOrder) (s : State) : (s.setQueue p q).acu = s.acu := rfl
@[simp] theorem State.setQueue_plant (p : Path) (q : List QOrder) (s : State) : (s.setQueue p q).plant = s.plant := rfl
@[simp] theorem State.setQueue_pending (p : Path) (q : List QOrder) (s : State) : (s.setQueue p q).pending = s.pending := rfl

@[simp] theorem State.closing_env (f : Env → Acu → Plant → Acu × Plant) (s : State) : (s.closing f).env = s.env := rfl
@[simp] theorem State.closing_oiu (f : Env → Acu → Plant → Acu × Plant) (s : State) : (s.closing f).oiu = s.oiu := rfl
@[simp] theorem State.closing_acu (f : Env → Acu → Plant → Acu × Plant) (s : State) : (s.closing f).acu = (f s.env s.acu s.plant).1 := rfl
@[simp] theorem State.closing_plant (f : Env → Acu → Plant → Acu × Plant) (s : State) : (s.closing f).plant = (f s.env s.acu s.plant).2 := rfl
@[simp] theorem State.closing_pending (f : Env → Acu → Plant → Acu × Plant) (s : State) : (s.closing f).pending = s.pending := rfl

/-! ### Actions on the plant -/

@[simp] theorem Plant.sendC_ltu (f : CFrame) (x : Plant) : (x.sendC f).ltu = x.ltu := rfl
@[simp] theorem Plant.sendC_tcu (f : CFrame) (x : Plant) : (x.sendC f).tcu = x.tcu := rfl
@[simp] theorem Plant.sendC_mou (f : CFrame) (x : Plant) : (x.sendC f).mou = x.mou := rfl
@[simp] theorem Plant.sendC_dru (f : CFrame) (x : Plant) : (x.sendC f).dru = x.dru := rfl
@[simp] theorem Plant.sendC_pru (f : CFrame) (x : Plant) : (x.sendC f).pru = x.pru := rfl
@[simp] theorem Plant.sendC_adu (f : CFrame) (x : Plant) : (x.sendC f).adu = x.adu := rfl
@[simp] theorem Plant.sendC_mgu (f : CFrame) (x : Plant) : (x.sendC f).mgu = x.mgu := rfl
@[simp] theorem Plant.sendC_out (f : CFrame) (x : Plant) : (x.sendC f).out = { x.out with c := x.out.c ++ [f] } := rfl

@[simp] theorem Plant.sendM_ltu (f : MFrame) (x : Plant) : (x.sendM f).ltu = x.ltu := rfl
@[simp] theorem Plant.sendM_tcu (f : MFrame) (x : Plant) : (x.sendM f).tcu = x.tcu := rfl
@[simp] theorem Plant.sendM_mou (f : MFrame) (x : Plant) : (x.sendM f).mou = x.mou := rfl
@[simp] theorem Plant.sendM_dru (f : MFrame) (x : Plant) : (x.sendM f).dru = x.dru := rfl
@[simp] theorem Plant.sendM_pru (f : MFrame) (x : Plant) : (x.sendM f).pru = x.pru := rfl
@[simp] theorem Plant.sendM_adu (f : MFrame) (x : Plant) : (x.sendM f).adu = x.adu := rfl
@[simp] theorem Plant.sendM_mgu (f : MFrame) (x : Plant) : (x.sendM f).mgu = x.mgu := rfl
@[simp] theorem Plant.sendM_out (f : MFrame) (x : Plant) : (x.sendM f).out = { x.out with m := x.out.m ++ [f] } := rfl

@[simp] theorem Plant.status_ltu (p : Path) (tag : Option Byte) (m : Mark) (st : Status) (x : Plant) : (x.status p tag m st).ltu = x.ltu := rfl
@[simp] theorem Plant.status_tcu (p : Path) (tag : Option Byte) (m : Mark) (st : Status) (x : Plant) : (x.status p tag m st).tcu = x.tcu := rfl
@[simp] theorem Plant.status_mou (p : Path) (tag : Option Byte) (m : Mark) (st : Status) (x : Plant) : (x.status p tag m st).mou = x.mou := rfl
@[simp] theorem Plant.status_dru (p : Path) (tag : Option Byte) (m : Mark) (st : Status) (x : Plant) : (x.status p tag m st).dru = x.dru := rfl
@[simp] theorem Plant.status_pru (p : Path) (tag : Option Byte) (m : Mark) (st : Status) (x : Plant) : (x.status p tag m st).pru = x.pru := rfl
@[simp] theorem Plant.status_adu (p : Path) (tag : Option Byte) (m : Mark) (st : Status) (x : Plant) : (x.status p tag m st).adu = x.adu := rfl
@[simp] theorem Plant.status_mgu (p : Path) (tag : Option Byte) (m : Mark) (st : Status) (x : Plant) : (x.status p tag m st).mgu = x.mgu := rfl
@[simp] theorem Plant.status_out (p : Path) (tag : Option Byte) (m : Mark) (st : Status) (x : Plant) : (x.status p tag m st).out = { x.out with c := x.out.c ++ [.status p tag m st] } := rfl

@[simp] theorem Plant.reply_ltu (h : Hdr) (r : Reply) (c : Contents) (x : Plant) : (x.reply h r c).ltu = x.ltu := rfl
@[simp] theorem Plant.reply_tcu (h : Hdr) (r : Reply) (c : Contents) (x : Plant) : (x.reply h r c).tcu = x.tcu := rfl
@[simp] theorem Plant.reply_mou (h : Hdr) (r : Reply) (c : Contents) (x : Plant) : (x.reply h r c).mou = x.mou := rfl
@[simp] theorem Plant.reply_dru (h : Hdr) (r : Reply) (c : Contents) (x : Plant) : (x.reply h r c).dru = x.dru := rfl
@[simp] theorem Plant.reply_pru (h : Hdr) (r : Reply) (c : Contents) (x : Plant) : (x.reply h r c).pru = x.pru := rfl
@[simp] theorem Plant.reply_adu (h : Hdr) (r : Reply) (c : Contents) (x : Plant) : (x.reply h r c).adu = x.adu := rfl
@[simp] theorem Plant.reply_mgu (h : Hdr) (r : Reply) (c : Contents) (x : Plant) : (x.reply h r c).mgu = x.mgu := rfl
@[simp] theorem Plant.reply_out (h : Hdr) (r : Reply) (c : Contents) (x : Plant) : (x.reply h r c).out = { x.out with c := x.out.c ++ [.reply h.path h.tag r c] } := rfl

@[simp] theorem Plant.clearFlag_ltu (f : Fin 14) (x : Plant) : (x.clearFlag f).ltu = x.ltu := rfl
@[simp] theorem Plant.clearFlag_tcu (f : Fin 14) (x : Plant) : (x.clearFlag f).tcu = x.tcu := rfl
@[simp] theorem Plant.clearFlag_mou (f : Fin 14) (x : Plant) : (x.clearFlag f).mou = x.mou := rfl
@[simp] theorem Plant.clearFlag_dru (f : Fin 14) (x : Plant) : (x.clearFlag f).dru = x.dru := rfl
@[simp] theorem Plant.clearFlag_pru (f : Fin 14) (x : Plant) : (x.clearFlag f).pru = x.pru := rfl
@[simp] theorem Plant.clearFlag_adu (f : Fin 14) (x : Plant) : (x.clearFlag f).adu = x.adu := rfl
@[simp] theorem Plant.clearFlag_mgu (f : Fin 14) (x : Plant) : (x.clearFlag f).mgu = { x.mgu with flags := vset x.mgu.flags f { x.mgu.flags.get f with isSet := false } } := rfl
@[simp] theorem Plant.clearFlag_out (f : Fin 14) (x : Plant) : (x.clearFlag f).out = x.out := rfl

@[simp] theorem Plant.putVol_ltu (v : Volume) (x : Plant) : (x.putVol v).ltu = { x.ltu with volumes := insertVolume v x.ltu.volumes } := rfl
@[simp] theorem Plant.putVol_tcu (v : Volume) (x : Plant) : (x.putVol v).tcu = x.tcu := rfl
@[simp] theorem Plant.putVol_mou (v : Volume) (x : Plant) : (x.putVol v).mou = x.mou := rfl
@[simp] theorem Plant.putVol_dru (v : Volume) (x : Plant) : (x.putVol v).dru = x.dru := rfl
@[simp] theorem Plant.putVol_pru (v : Volume) (x : Plant) : (x.putVol v).pru = x.pru := rfl
@[simp] theorem Plant.putVol_adu (v : Volume) (x : Plant) : (x.putVol v).adu = x.adu := rfl
@[simp] theorem Plant.putVol_mgu (v : Volume) (x : Plant) : (x.putVol v).mgu = x.mgu := rfl
@[simp] theorem Plant.putVol_out (v : Volume) (x : Plant) : (x.putVol v).out = x.out := rfl

@[simp] theorem Plant.putCell_ltu (r : CellRec) (x : Plant) : (x.putCell r).ltu = { x.ltu with cells := writeCell r x.ltu.cells } := rfl
@[simp] theorem Plant.putCell_tcu (r : CellRec) (x : Plant) : (x.putCell r).tcu = x.tcu := rfl
@[simp] theorem Plant.putCell_mou (r : CellRec) (x : Plant) : (x.putCell r).mou = x.mou := rfl
@[simp] theorem Plant.putCell_dru (r : CellRec) (x : Plant) : (x.putCell r).dru = x.dru := rfl
@[simp] theorem Plant.putCell_pru (r : CellRec) (x : Plant) : (x.putCell r).pru = x.pru := rfl
@[simp] theorem Plant.putCell_adu (r : CellRec) (x : Plant) : (x.putCell r).adu = x.adu := rfl
@[simp] theorem Plant.putCell_mgu (r : CellRec) (x : Plant) : (x.putCell r).mgu = x.mgu := rfl
@[simp] theorem Plant.putCell_out (r : CellRec) (x : Plant) : (x.putCell r).out = x.out := rfl

@[simp] theorem Plant.setEntry_ltu (n : Fin 8) (r : Slot) (x : Plant) : (x.setEntry n r).ltu = { x.ltu with entry := vset x.ltu.entry n r } := rfl
@[simp] theorem Plant.setEntry_tcu (n : Fin 8) (r : Slot) (x : Plant) : (x.setEntry n r).tcu = x.tcu := rfl
@[simp] theorem Plant.setEntry_mou (n : Fin 8) (r : Slot) (x : Plant) : (x.setEntry n r).mou = x.mou := rfl
@[simp] theorem Plant.setEntry_dru (n : Fin 8) (r : Slot) (x : Plant) : (x.setEntry n r).dru = x.dru := rfl
@[simp] theorem Plant.setEntry_pru (n : Fin 8) (r : Slot) (x : Plant) : (x.setEntry n r).pru = x.pru := rfl
@[simp] theorem Plant.setEntry_adu (n : Fin 8) (r : Slot) (x : Plant) : (x.setEntry n r).adu = x.adu := rfl
@[simp] theorem Plant.setEntry_mgu (n : Fin 8) (r : Slot) (x : Plant) : (x.setEntry n r).mgu = x.mgu := rfl
@[simp] theorem Plant.setEntry_out (n : Fin 8) (r : Slot) (x : Plant) : (x.setEntry n r).out = x.out := rfl

@[simp] theorem Plant.setService_ltu (n : Fin 8) (r : Slot) (x : Plant) : (x.setService n r).ltu = { x.ltu with service := vset x.ltu.service n r } := rfl
@[simp] theorem Plant.setService_tcu (n : Fin 8) (r : Slot) (x : Plant) : (x.setService n r).tcu = x.tcu := rfl
@[simp] theorem Plant.setService_mou (n : Fin 8) (r : Slot) (x : Plant) : (x.setService n r).mou = x.mou := rfl
@[simp] theorem Plant.setService_dru (n : Fin 8) (r : Slot) (x : Plant) : (x.setService n r).dru = x.dru := rfl
@[simp] theorem Plant.setService_pru (n : Fin 8) (r : Slot) (x : Plant) : (x.setService n r).pru = x.pru := rfl
@[simp] theorem Plant.setService_adu (n : Fin 8) (r : Slot) (x : Plant) : (x.setService n r).adu = x.adu := rfl
@[simp] theorem Plant.setService_mgu (n : Fin 8) (r : Slot) (x : Plant) : (x.setService n r).mgu = x.mgu := rfl
@[simp] theorem Plant.setService_out (n : Fin 8) (r : Slot) (x : Plant) : (x.setService n r).out = x.out := rfl

@[simp] theorem Plant.setHandoff_ltu (h : Fin 4) (r : Slot) (x : Plant) : (x.setHandoff h r).ltu = x.ltu := rfl
@[simp] theorem Plant.setHandoff_tcu (h : Fin 4) (r : Slot) (x : Plant) : (x.setHandoff h r).tcu = x.tcu := rfl
@[simp] theorem Plant.setHandoff_mou (h : Fin 4) (r : Slot) (x : Plant) : (x.setHandoff h r).mou = { x.mou with handoff := vset x.mou.handoff h r } := rfl
@[simp] theorem Plant.setHandoff_dru (h : Fin 4) (r : Slot) (x : Plant) : (x.setHandoff h r).dru = x.dru := rfl
@[simp] theorem Plant.setHandoff_pru (h : Fin 4) (r : Slot) (x : Plant) : (x.setHandoff h r).pru = x.pru := rfl
@[simp] theorem Plant.setHandoff_adu (h : Fin 4) (r : Slot) (x : Plant) : (x.setHandoff h r).adu = x.adu := rfl
@[simp] theorem Plant.setHandoff_mgu (h : Fin 4) (r : Slot) (x : Plant) : (x.setHandoff h r).mgu = x.mgu := rfl
@[simp] theorem Plant.setHandoff_out (h : Fin 4) (r : Slot) (x : Plant) : (x.setHandoff h r).out = x.out := rfl

@[simp] theorem Plant.putTask_ltu (t : TaskNo) (k : Option Task) (x : Plant) : (x.putTask t k).ltu = x.ltu := rfl
@[simp] theorem Plant.putTask_tcu (t : TaskNo) (k : Option Task) (x : Plant) : (x.putTask t k).tcu = { x.tcu with tasks := vset x.tcu.tasks t k } := rfl
@[simp] theorem Plant.putTask_mou (t : TaskNo) (k : Option Task) (x : Plant) : (x.putTask t k).mou = x.mou := rfl
@[simp] theorem Plant.putTask_dru (t : TaskNo) (k : Option Task) (x : Plant) : (x.putTask t k).dru = x.dru := rfl
@[simp] theorem Plant.putTask_pru (t : TaskNo) (k : Option Task) (x : Plant) : (x.putTask t k).pru = x.pru := rfl
@[simp] theorem Plant.putTask_adu (t : TaskNo) (k : Option Task) (x : Plant) : (x.putTask t k).adu = x.adu := rfl
@[simp] theorem Plant.putTask_mgu (t : TaskNo) (k : Option Task) (x : Plant) : (x.putTask t k).mgu = x.mgu := rfl
@[simp] theorem Plant.putTask_out (t : TaskNo) (k : Option Task) (x : Plant) : (x.putTask t k).out = x.out := rfl

@[simp] theorem Plant.putDrive_ltu (d : DriveNo) (r : Drive) (x : Plant) : (x.putDrive d r).ltu = x.ltu := rfl
@[simp] theorem Plant.putDrive_tcu (d : DriveNo) (r : Drive) (x : Plant) : (x.putDrive d r).tcu = x.tcu := rfl
@[simp] theorem Plant.putDrive_mou (d : DriveNo) (r : Drive) (x : Plant) : (x.putDrive d r).mou = x.mou := rfl
@[simp] theorem Plant.putDrive_dru (d : DriveNo) (r : Drive) (x : Plant) : (x.putDrive d r).dru = { x.dru with drives := vset x.dru.drives d r } := rfl
@[simp] theorem Plant.putDrive_pru (d : DriveNo) (r : Drive) (x : Plant) : (x.putDrive d r).pru = x.pru := rfl
@[simp] theorem Plant.putDrive_adu (d : DriveNo) (r : Drive) (x : Plant) : (x.putDrive d r).adu = x.adu := rfl
@[simp] theorem Plant.putDrive_mgu (d : DriveNo) (r : Drive) (x : Plant) : (x.putDrive d r).mgu = x.mgu := rfl
@[simp] theorem Plant.putDrive_out (d : DriveNo) (r : Drive) (x : Plant) : (x.putDrive d r).out = x.out := rfl

@[simp] theorem Plant.updDrive_ltu (d : DriveNo) (f : Drive → Drive) (x : Plant) : (x.updDrive d f).ltu = x.ltu := rfl
@[simp] theorem Plant.updDrive_tcu (d : DriveNo) (f : Drive → Drive) (x : Plant) : (x.updDrive d f).tcu = x.tcu := rfl
@[simp] theorem Plant.updDrive_mou (d : DriveNo) (f : Drive → Drive) (x : Plant) : (x.updDrive d f).mou = x.mou := rfl
@[simp] theorem Plant.updDrive_dru (d : DriveNo) (f : Drive → Drive) (x : Plant) : (x.updDrive d f).dru = { x.dru with drives := vset x.dru.drives d (f (x.drive d)) } := rfl
@[simp] theorem Plant.updDrive_pru (d : DriveNo) (f : Drive → Drive) (x : Plant) : (x.updDrive d f).pru = x.pru := rfl
@[simp] theorem Plant.updDrive_adu (d : DriveNo) (f : Drive → Drive) (x : Plant) : (x.updDrive d f).adu = x.adu := rfl
@[simp] theorem Plant.updDrive_mgu (d : DriveNo) (f : Drive → Drive) (x : Plant) : (x.updDrive d f).mgu = x.mgu := rfl
@[simp] theorem Plant.updDrive_out (d : DriveNo) (f : Drive → Drive) (x : Plant) : (x.updDrive d f).out = x.out := rfl

@[simp] theorem Plant.updAcc_ltu (a : Acc) (g : AccCtx → AccCtx) (x : Plant) : (x.updAcc a g).ltu = x.ltu := by
  cases a <;> rfl
@[simp] theorem Plant.updAcc_tcu (a : Acc) (g : AccCtx → AccCtx) (x : Plant) : (x.updAcc a g).tcu = x.tcu := by
  cases a <;> rfl
@[simp] theorem Plant.updAcc_dru (a : Acc) (g : AccCtx → AccCtx) (x : Plant) : (x.updAcc a g).dru = x.dru := by
  cases a <;> rfl
@[simp] theorem Plant.updAcc_pru (a : Acc) (g : AccCtx → AccCtx) (x : Plant) : (x.updAcc a g).pru = x.pru := by
  cases a <;> rfl
@[simp] theorem Plant.updAcc_adu (a : Acc) (g : AccCtx → AccCtx) (x : Plant) : (x.updAcc a g).adu = x.adu := by
  cases a <;> rfl
@[simp] theorem Plant.updAcc_mgu (a : Acc) (g : AccCtx → AccCtx) (x : Plant) : (x.updAcc a g).mgu = x.mgu := by
  cases a <;> rfl
@[simp] theorem Plant.updAcc_out (a : Acc) (g : AccCtx → AccCtx) (x : Plant) : (x.updAcc a g).out = x.out := by
  cases a <;> rfl

@[simp] theorem Plant.updList_ltu (l : ListNo) (g : ListCtx → ListCtx) (x : Plant) : (x.updList l g).ltu = x.ltu := by
  cases l <;> rfl
@[simp] theorem Plant.updList_tcu (l : ListNo) (g : ListCtx → ListCtx) (x : Plant) : (x.updList l g).tcu = x.tcu := by
  cases l <;> rfl
@[simp] theorem Plant.updList_mou (l : ListNo) (g : ListCtx → ListCtx) (x : Plant) : (x.updList l g).mou = x.mou := by
  cases l <;> rfl
@[simp] theorem Plant.updList_dru (l : ListNo) (g : ListCtx → ListCtx) (x : Plant) : (x.updList l g).dru = x.dru := by
  cases l <;> rfl
@[simp] theorem Plant.updList_pru (l : ListNo) (g : ListCtx → ListCtx) (x : Plant) : (x.updList l g).pru = x.pru := by
  cases l <;> rfl
@[simp] theorem Plant.updList_mgu (l : ListNo) (g : ListCtx → ListCtx) (x : Plant) : (x.updList l g).mgu = x.mgu := by
  cases l <;> rfl
@[simp] theorem Plant.updList_out (l : ListNo) (g : ListCtx → ListCtx) (x : Plant) : (x.updList l g).out = x.out := by
  cases l <;> rfl

@[simp] theorem Plant.updCon_ltu (c : Console) (k : ConsoleCtx) (x : Plant) : (x.updCon c k).ltu = x.ltu := by
  cases c <;> rfl
@[simp] theorem Plant.updCon_tcu (c : Console) (k : ConsoleCtx) (x : Plant) : (x.updCon c k).tcu = x.tcu := by
  cases c <;> rfl
@[simp] theorem Plant.updCon_mou (c : Console) (k : ConsoleCtx) (x : Plant) : (x.updCon c k).mou = x.mou := by
  cases c <;> rfl
@[simp] theorem Plant.updCon_dru (c : Console) (k : ConsoleCtx) (x : Plant) : (x.updCon c k).dru = x.dru := by
  cases c <;> rfl
@[simp] theorem Plant.updCon_adu (c : Console) (k : ConsoleCtx) (x : Plant) : (x.updCon c k).adu = x.adu := by
  cases c <;> rfl
@[simp] theorem Plant.updCon_mgu (c : Console) (k : ConsoleCtx) (x : Plant) : (x.updCon c k).mgu = x.mgu := by
  cases c <;> rfl
@[simp] theorem Plant.updCon_out (c : Console) (k : ConsoleCtx) (x : Plant) : (x.updCon c k).out = x.out := by
  cases c <;> rfl

@[simp] theorem Plant.updVol_ltu (s : Serial) (f : Volume → Volume) (x : Plant) : (x.updVol s f).ltu = { x.ltu with volumes := x.ltu.volumes.map fun v => if v.serial = s then f v else v } := rfl
@[simp] theorem Plant.updVol_tcu (s : Serial) (f : Volume → Volume) (x : Plant) : (x.updVol s f).tcu = x.tcu := rfl
@[simp] theorem Plant.updVol_mou (s : Serial) (f : Volume → Volume) (x : Plant) : (x.updVol s f).mou = x.mou := rfl
@[simp] theorem Plant.updVol_dru (s : Serial) (f : Volume → Volume) (x : Plant) : (x.updVol s f).dru = x.dru := rfl
@[simp] theorem Plant.updVol_pru (s : Serial) (f : Volume → Volume) (x : Plant) : (x.updVol s f).pru = x.pru := rfl
@[simp] theorem Plant.updVol_adu (s : Serial) (f : Volume → Volume) (x : Plant) : (x.updVol s f).adu = x.adu := rfl
@[simp] theorem Plant.updVol_mgu (s : Serial) (f : Volume → Volume) (x : Plant) : (x.updVol s f).mgu = x.mgu := rfl
@[simp] theorem Plant.updVol_out (s : Serial) (f : Volume → Volume) (x : Plant) : (x.updVol s f).out = x.out := rfl

@[simp] theorem Plant.dropVol_ltu (s : Serial) (x : Plant) : (x.dropVol s).ltu = { x.ltu with volumes := x.ltu.volumes.filter fun v => v.serial ≠ s } := rfl
@[simp] theorem Plant.dropVol_tcu (s : Serial) (x : Plant) : (x.dropVol s).tcu = x.tcu := rfl
@[simp] theorem Plant.dropVol_mou (s : Serial) (x : Plant) : (x.dropVol s).mou = x.mou := rfl
@[simp] theorem Plant.dropVol_dru (s : Serial) (x : Plant) : (x.dropVol s).dru = x.dru := rfl
@[simp] theorem Plant.dropVol_pru (s : Serial) (x : Plant) : (x.dropVol s).pru = x.pru := rfl
@[simp] theorem Plant.dropVol_adu (s : Serial) (x : Plant) : (x.dropVol s).adu = x.adu := rfl
@[simp] theorem Plant.dropVol_mgu (s : Serial) (x : Plant) : (x.dropVol s).mgu = x.mgu := rfl
@[simp] theorem Plant.dropVol_out (s : Serial) (x : Plant) : (x.dropVol s).out = x.out := rfl

@[simp] theorem Plant.joinPool_ltu (s : Serial) (x : Plant) : (x.joinPool s).ltu = { x.ltu with pool := Machine.joinPool s x.ltu.pool } := rfl
@[simp] theorem Plant.joinPool_tcu (s : Serial) (x : Plant) : (x.joinPool s).tcu = x.tcu := rfl
@[simp] theorem Plant.joinPool_mou (s : Serial) (x : Plant) : (x.joinPool s).mou = x.mou := rfl
@[simp] theorem Plant.joinPool_dru (s : Serial) (x : Plant) : (x.joinPool s).dru = x.dru := rfl
@[simp] theorem Plant.joinPool_pru (s : Serial) (x : Plant) : (x.joinPool s).pru = x.pru := rfl
@[simp] theorem Plant.joinPool_adu (s : Serial) (x : Plant) : (x.joinPool s).adu = x.adu := rfl
@[simp] theorem Plant.joinPool_mgu (s : Serial) (x : Plant) : (x.joinPool s).mgu = x.mgu := rfl
@[simp] theorem Plant.joinPool_out (s : Serial) (x : Plant) : (x.joinPool s).out = x.out := rfl

@[simp] theorem Plant.leavePool_ltu (s : Serial) (x : Plant) : (x.leavePool s).ltu = { x.ltu with pool := x.ltu.pool.filter (· ≠ s) } := rfl
@[simp] theorem Plant.leavePool_tcu (s : Serial) (x : Plant) : (x.leavePool s).tcu = x.tcu := rfl
@[simp] theorem Plant.leavePool_mou (s : Serial) (x : Plant) : (x.leavePool s).mou = x.mou := rfl
@[simp] theorem Plant.leavePool_dru (s : Serial) (x : Plant) : (x.leavePool s).dru = x.dru := rfl
@[simp] theorem Plant.leavePool_pru (s : Serial) (x : Plant) : (x.leavePool s).pru = x.pru := rfl
@[simp] theorem Plant.leavePool_adu (s : Serial) (x : Plant) : (x.leavePool s).adu = x.adu := rfl
@[simp] theorem Plant.leavePool_mgu (s : Serial) (x : Plant) : (x.leavePool s).mgu = x.mgu := rfl
@[simp] theorem Plant.leavePool_out (s : Serial) (x : Plant) : (x.leavePool s).out = x.out := rfl

@[simp] theorem Plant.putOcc_ltu (c : CellNo) (o : Occ) (x : Plant) : (x.putOcc c o).ltu = { x.ltu with cells := writeCell { x.cell c with occ := o } x.ltu.cells } := rfl
@[simp] theorem Plant.putOcc_tcu (c : CellNo) (o : Occ) (x : Plant) : (x.putOcc c o).tcu = x.tcu := rfl
@[simp] theorem Plant.putOcc_mou (c : CellNo) (o : Occ) (x : Plant) : (x.putOcc c o).mou = x.mou := rfl
@[simp] theorem Plant.putOcc_dru (c : CellNo) (o : Occ) (x : Plant) : (x.putOcc c o).dru = x.dru := rfl
@[simp] theorem Plant.putOcc_pru (c : CellNo) (o : Occ) (x : Plant) : (x.putOcc c o).pru = x.pru := rfl
@[simp] theorem Plant.putOcc_adu (c : CellNo) (o : Occ) (x : Plant) : (x.putOcc c o).adu = x.adu := rfl
@[simp] theorem Plant.putOcc_mgu (c : CellNo) (o : Occ) (x : Plant) : (x.putOcc c o).mgu = x.mgu := rfl
@[simp] theorem Plant.putOcc_out (c : CellNo) (o : Occ) (x : Plant) : (x.putOcc c o).out = x.out := rfl

@[simp] theorem Plant.setHomeOf_ltu (c : CellNo) (h : Option Serial) (x : Plant) : (x.setHomeOf c h).ltu = { x.ltu with cells := writeCell { x.cell c with homeOf := h } x.ltu.cells } := rfl
@[simp] theorem Plant.setHomeOf_tcu (c : CellNo) (h : Option Serial) (x : Plant) : (x.setHomeOf c h).tcu = x.tcu := rfl
@[simp] theorem Plant.setHomeOf_mou (c : CellNo) (h : Option Serial) (x : Plant) : (x.setHomeOf c h).mou = x.mou := rfl
@[simp] theorem Plant.setHomeOf_dru (c : CellNo) (h : Option Serial) (x : Plant) : (x.setHomeOf c h).dru = x.dru := rfl
@[simp] theorem Plant.setHomeOf_pru (c : CellNo) (h : Option Serial) (x : Plant) : (x.setHomeOf c h).pru = x.pru := rfl
@[simp] theorem Plant.setHomeOf_adu (c : CellNo) (h : Option Serial) (x : Plant) : (x.setHomeOf c h).adu = x.adu := rfl
@[simp] theorem Plant.setHomeOf_mgu (c : CellNo) (h : Option Serial) (x : Plant) : (x.setHomeOf c h).mgu = x.mgu := rfl
@[simp] theorem Plant.setHomeOf_out (c : CellNo) (h : Option Serial) (x : Plant) : (x.setHomeOf c h).out = x.out := rfl

@[simp] theorem Plant.evict_tcu (k : Option Serial) (l : Location) (x : Plant) : (x.evict k l).tcu = x.tcu := by unfold Plant.evict; split <;> rfl
@[simp] theorem Plant.evict_mou (k : Option Serial) (l : Location) (x : Plant) : (x.evict k l).mou = x.mou := by unfold Plant.evict; split <;> rfl
@[simp] theorem Plant.evict_dru (k : Option Serial) (l : Location) (x : Plant) : (x.evict k l).dru = x.dru := by unfold Plant.evict; split <;> rfl
@[simp] theorem Plant.evict_pru (k : Option Serial) (l : Location) (x : Plant) : (x.evict k l).pru = x.pru := by unfold Plant.evict; split <;> rfl
@[simp] theorem Plant.evict_adu (k : Option Serial) (l : Location) (x : Plant) : (x.evict k l).adu = x.adu := by unfold Plant.evict; split <;> rfl
@[simp] theorem Plant.evict_mgu (k : Option Serial) (l : Location) (x : Plant) : (x.evict k l).mgu = x.mgu := by unfold Plant.evict; split <;> rfl
@[simp] theorem Plant.evict_out (k : Option Serial) (l : Location) (x : Plant) : (x.evict k l).out = x.out := by unfold Plant.evict; split <;> rfl

@[simp] theorem Plant.updTask_ltu (t : TaskNo) (f : Task → Task) (x : Plant) : (x.updTask t f).ltu = x.ltu := rfl
@[simp] theorem Plant.updTask_tcu (t : TaskNo) (f : Task → Task) (x : Plant) : (x.updTask t f).tcu = { x.tcu with tasks := vset x.tcu.tasks t ((x.task? t).map f) } := rfl
@[simp] theorem Plant.updTask_mou (t : TaskNo) (f : Task → Task) (x : Plant) : (x.updTask t f).mou = x.mou := rfl
@[simp] theorem Plant.updTask_dru (t : TaskNo) (f : Task → Task) (x : Plant) : (x.updTask t f).dru = x.dru := rfl
@[simp] theorem Plant.updTask_pru (t : TaskNo) (f : Task → Task) (x : Plant) : (x.updTask t f).pru = x.pru := rfl
@[simp] theorem Plant.updTask_adu (t : TaskNo) (f : Task → Task) (x : Plant) : (x.updTask t f).adu = x.adu := rfl
@[simp] theorem Plant.updTask_mgu (t : TaskNo) (f : Task → Task) (x : Plant) : (x.updTask t f).mgu = x.mgu := rfl
@[simp] theorem Plant.updTask_out (t : TaskNo) (f : Task → Task) (x : Plant) : (x.updTask t f).out = x.out := rfl

@[simp] theorem Plant.joinQueue_ltu (e : Env) (l : Leg) (x : Plant) : (x.joinQueue e l).ltu = x.ltu := rfl
@[simp] theorem Plant.joinQueue_tcu (e : Env) (l : Leg) (x : Plant) : (x.joinQueue e l).tcu = x.tcu := rfl
@[simp] theorem Plant.joinQueue_mou (e : Env) (l : Leg) (x : Plant) : (x.joinQueue e l).mou = { x.mou with queue := insertLeg e.tick l x.mou.queue } := rfl
@[simp] theorem Plant.joinQueue_dru (e : Env) (l : Leg) (x : Plant) : (x.joinQueue e l).dru = x.dru := rfl
@[simp] theorem Plant.joinQueue_pru (e : Env) (l : Leg) (x : Plant) : (x.joinQueue e l).pru = x.pru := rfl
@[simp] theorem Plant.joinQueue_adu (e : Env) (l : Leg) (x : Plant) : (x.joinQueue e l).adu = x.adu := rfl
@[simp] theorem Plant.joinQueue_mgu (e : Env) (l : Leg) (x : Plant) : (x.joinQueue e l).mgu = x.mgu := rfl
@[simp] theorem Plant.joinQueue_out (e : Env) (l : Leg) (x : Plant) : (x.joinQueue e l).out = x.out := rfl

@[simp] theorem Plant.withdrawClaim_ltu (a : Acc) (x : Plant) : (x.withdrawClaim a).ltu = x.ltu := by unfold Plant.withdrawClaim; split <;> rfl
@[simp] theorem Plant.withdrawClaim_tcu (a : Acc) (x : Plant) : (x.withdrawClaim a).tcu = x.tcu := by unfold Plant.withdrawClaim; split <;> rfl
@[simp] theorem Plant.withdrawClaim_dru (a : Acc) (x : Plant) : (x.withdrawClaim a).dru = x.dru := by unfold Plant.withdrawClaim; split <;> rfl
@[simp] theorem Plant.withdrawClaim_pru (a : Acc) (x : Plant) : (x.withdrawClaim a).pru = x.pru := by unfold Plant.withdrawClaim; split <;> rfl
@[simp] theorem Plant.withdrawClaim_adu (a : Acc) (x : Plant) : (x.withdrawClaim a).adu = x.adu := by unfold Plant.withdrawClaim; split <;> rfl
@[simp] theorem Plant.withdrawClaim_mgu (a : Acc) (x : Plant) : (x.withdrawClaim a).mgu = x.mgu := by unfold Plant.withdrawClaim; split <;> rfl
@[simp] theorem Plant.withdrawClaim_out (a : Acc) (x : Plant) : (x.withdrawClaim a).out = x.out := by unfold Plant.withdrawClaim; split <;> rfl

/-! ### The zone, the steps and the resting accessor -/

@[simp] theorem Plant.grantZone_ltu (e : Env) (a : Acc) (x : Plant) : (x.grantZone e a).ltu = x.ltu := rfl
@[simp] theorem Plant.grantZone_tcu (e : Env) (a : Acc) (x : Plant) : (x.grantZone e a).tcu = x.tcu := rfl
@[simp] theorem Plant.grantZone_dru (e : Env) (a : Acc) (x : Plant) : (x.grantZone e a).dru = x.dru := rfl
@[simp] theorem Plant.grantZone_pru (e : Env) (a : Acc) (x : Plant) : (x.grantZone e a).pru = x.pru := rfl
@[simp] theorem Plant.grantZone_adu (e : Env) (a : Acc) (x : Plant) : (x.grantZone e a).adu = x.adu := rfl
@[simp] theorem Plant.grantZone_mgu (e : Env) (a : Acc) (x : Plant) : (x.grantZone e a).mgu = x.mgu := rfl
@[simp] theorem Plant.grantZone_out (e : Env) (a : Acc) (x : Plant) : (x.grantZone e a).out = x.out := rfl
@[simp] theorem Plant.grantZone_holder (e : Env) (a : Acc) (x : Plant) : (x.grantZone e a).mou.holder = some a := rfl
@[simp] theorem Plant.grantZone_tenure (e : Env) (a : Acc) (x : Plant) : (x.grantZone e a).mou.tenure = e.set.tenure := rfl
@[simp] theorem Plant.grantZone_acc (e : Env) (a b : Acc) (x : Plant) : (x.grantZone e a).acc b = x.acc b := by cases b <;> rfl

/-- What a release can do: with no claim waiting the zone is free, else the claimant is granted it (R95, R97). -/
theorem Plant.releaseZone_cases (e : Env) (x : Plant) : ∀ y, y = { x with mou.holder := none, mou.tenureEnd := none, mou.expired := false } →
    (x.mou.claimant = none ∧ x.releaseZone e = y) ∨ ∃ b, x.mou.claimant = some b ∧ x.releaseZone e = y.grantZone e b := by
  rintro y rfl
  unfold Plant.releaseZone
  cases h : x.mou.claimant with
  | none => exact .inl ⟨rfl, rfl⟩
  | some b => exact .inr ⟨b, rfl, rfl⟩

@[simp] theorem Plant.releaseZone_ltu (e : Env) (x : Plant) : (x.releaseZone e).ltu = x.ltu := by unfold Plant.releaseZone; split <;> rfl
@[simp] theorem Plant.releaseZone_tcu (e : Env) (x : Plant) : (x.releaseZone e).tcu = x.tcu := by unfold Plant.releaseZone; split <;> rfl
@[simp] theorem Plant.releaseZone_dru (e : Env) (x : Plant) : (x.releaseZone e).dru = x.dru := by unfold Plant.releaseZone; split <;> rfl
@[simp] theorem Plant.releaseZone_pru (e : Env) (x : Plant) : (x.releaseZone e).pru = x.pru := by unfold Plant.releaseZone; split <;> rfl
@[simp] theorem Plant.releaseZone_adu (e : Env) (x : Plant) : (x.releaseZone e).adu = x.adu := by unfold Plant.releaseZone; split <;> rfl
@[simp] theorem Plant.releaseZone_mgu (e : Env) (x : Plant) : (x.releaseZone e).mgu = x.mgu := by unfold Plant.releaseZone; split <;> rfl
@[simp] theorem Plant.releaseZone_out (e : Env) (x : Plant) : (x.releaseZone e).out = x.out := by unfold Plant.releaseZone; split <;> rfl
@[simp] theorem Plant.releaseZone_acc (e : Env) (b : Acc) (x : Plant) : (x.releaseZone e).acc b = x.acc b := by
  unfold Plant.releaseZone; split <;> cases b <;> rfl

@[simp] theorem Plant.sendStep_ltu (e : Env) (a : Acc) (k : StepKind) (x : Plant) : (x.sendStep e a k).ltu = x.ltu := by cases a <;> rfl
@[simp] theorem Plant.sendStep_tcu (e : Env) (a : Acc) (k : StepKind) (x : Plant) : (x.sendStep e a k).tcu = x.tcu := by cases a <;> rfl
@[simp] theorem Plant.sendStep_dru (e : Env) (a : Acc) (k : StepKind) (x : Plant) : (x.sendStep e a k).dru = x.dru := by cases a <;> rfl
@[simp] theorem Plant.sendStep_pru (e : Env) (a : Acc) (k : StepKind) (x : Plant) : (x.sendStep e a k).pru = x.pru := by cases a <;> rfl
@[simp] theorem Plant.sendStep_adu (e : Env) (a : Acc) (k : StepKind) (x : Plant) : (x.sendStep e a k).adu = x.adu := by cases a <;> rfl
@[simp] theorem Plant.sendStep_mgu (e : Env) (a : Acc) (k : StepKind) (x : Plant) : (x.sendStep e a k).mgu = x.mgu := by cases a <;> rfl

@[simp] theorem Plant.goIdle_ltu (e : Env) (a : Acc) (x : Plant) : (x.goIdle e a).ltu = x.ltu := by unfold Plant.goIdle; split <;> cases a <;> rfl
@[simp] theorem Plant.goIdle_tcu (e : Env) (a : Acc) (x : Plant) : (x.goIdle e a).tcu = x.tcu := by unfold Plant.goIdle; split <;> cases a <;> rfl
@[simp] theorem Plant.goIdle_dru (e : Env) (a : Acc) (x : Plant) : (x.goIdle e a).dru = x.dru := by unfold Plant.goIdle; split <;> cases a <;> rfl
@[simp] theorem Plant.goIdle_pru (e : Env) (a : Acc) (x : Plant) : (x.goIdle e a).pru = x.pru := by unfold Plant.goIdle; split <;> cases a <;> rfl
@[simp] theorem Plant.goIdle_adu (e : Env) (a : Acc) (x : Plant) : (x.goIdle e a).adu = x.adu := by unfold Plant.goIdle; split <;> cases a <;> rfl
@[simp] theorem Plant.goIdle_mgu (e : Env) (a : Acc) (x : Plant) : (x.goIdle e a).mgu = x.mgu := by unfold Plant.goIdle; split <;> cases a <;> rfl
@[simp] theorem Plant.goIdle_out (e : Env) (a : Acc) (x : Plant) : (x.goIdle e a).out = x.out := by unfold Plant.goIdle; split <;> cases a <;> rfl

end Sys2Proof.Machine
end

