-- ==== Sys2Proof/Laws/Command.lean ====
section
/-!
SUPPORT. What taking a command comes to: the held pin, the checks of a management command, the arrival checks of an
order, and reading a table entry just written.
-/
namespace Sys2Proof.Machine

/-- A held part is as it was. -/
theorem State.run_held {s : State} (h : s.env.resetPin = true) (f : State → State) : s.run f = .next s := by
  simp [State.run, h]

/-- A part that is not held acts. -/
theorem State.run_free {s : State} (h : s.free) (f : State → State) : s.run f = .next (f s) := by
  have h : s.env.resetPin = false := h
  simp [State.run, h]

/-- A management command that reaches its owner is its body. -/
theorem State.mgmt_body {h : Hdr} {s : State} (hs : s.manages h) (body : State → State) :
    s.mgmt h body = .next (body s) := by
  obtain ⟨hf, hm, hl, hz⟩ := hs
  have hf : s.env.resetPin = false := hf
  simp [State.mgmt, State.run, State.manage, hf, hm, hl, hz]

/-- A management command adds to a state, besides what its body does, at most one refusal. -/
theorem State.mgmt_cases (h : Hdr) (s : State) (body : State → State) :
    s.mgmt h body = .next s ∨ (∃ r, s.mgmt h body = .next (s.say h r .nothing)) ∨ s.mgmt h body = .next (body s) := by
  unfold State.mgmt State.run State.manage
  split
  · exact .inl rfl
  · split
    · exact .inr (.inl ⟨_, rfl⟩)
    · split
      · exact .inr (.inl ⟨_, rfl⟩)
      · split
        · exact .inr (.inl ⟨_, rfl⟩)
        · exact .inr (.inr rfl)

/-- An order that passes the arrival checks is its body. -/
theorem State.arrive_body {h : Hdr} {s : State} (hs : s.orders h) (mk : Bool) (body : State → State)
    (hq : mk = true → (s.queue h.path).length < 16) : s.arrive h true mk body = body s := by
  obtain ⟨_, hl, hz, ht⟩ := hs
  have hl : s.plant.mgu.lib.takesOrders = true := by rcases hl with h | h <;> simp [h, LibState.takesOrders]
  have hq : (mk && decide (16 ≤ (s.queue h.path).length)) = false := by
    cases mk with
    | false => rfl
    | true => simpa using hq rfl
  simp only [State.arrive, hl, hz, ht, hq]
  simp

/-- An operand with a value is handed on. -/
@[simp] theorem State.given_some {α : Type} (h : Hdr) (a : α) (f : α → State → State) (s : State) :
    s.given h (some a) f = f a s := rfl

/-- An operand without a value is refused. -/
@[simp] theorem State.given_none {α : Type} (h : Hdr) (f : α → State → State) (s : State) :
    s.given h none f = s.say h .badValue .nothing := rfl

/-- The entry just written is read back. -/
@[simp] theorem get_vset_same {α : Type} {n : Nat} (v : Vector α n) (i : Fin n) (a : α) : (vset v i a).get i = a := by
  simp [vset, Vector.get_eq_getElem]

/-- Every other entry is as it was. -/
theorem get_vset_other {α : Type} {n : Nat} (v : Vector α n) {i j : Fin n} (h : i ≠ j) (a : α) :
    (vset v i a).get j = v.get j := by
  have : i.val ≠ j.val := fun e => h (Fin.ext e)
  simp [vset, Vector.get_eq_getElem, this]

/-- The state with a reply, in the two ways the package writes it. -/
theorem State.say_eq_replied (h : Hdr) (r : Reply) (c : Contents) (s : State) : s.say h r c = s.replied h r c := rfl

theorem State.accept_eq_replied (h : Hdr) (s : State) : s.accept h = s.replied h .accepted .nothing := rfl

theorem State.show_eq_replied (h : Hdr) (c : Contents) (s : State) : s.show h c = s.replied h .data c := rfl

theorem State.final_eq_finished (h : Hdr) (st : Status) (s : State) : s.final h st = s.finished h st := rfl

end Sys2Proof.Machine
end

