-- ==== Sys2Proof/Laws/Tables.lean ====
section
/-!
SUPPORT. The laws of the tables: what is read after a write, that a write leaves every other entry alone, and that the
cell map and the volume table keep their order.
-/
namespace Sys2Proof.Machine

/-! ### Tables of fixed size -/

@[simp] theorem Plant.task?_putTask_same (t : TaskNo) (k : Option Task) (x : Plant) :
    (x.putTask t k).task? t = k := by simp [Plant.task?, Plant.putTask]

theorem Plant.task?_putTask_other {t u : TaskNo} (h : t ≠ u) (k : Option Task) (x : Plant) :
    (x.putTask t k).task? u = x.task? u := by simp [Plant.task?, Plant.putTask, get_vset_other _ h]

@[simp] theorem Plant.task?_updTask_same (t : TaskNo) (f : Task → Task) (x : Plant) :
    (x.updTask t f).task? t = (x.task? t).map f := by simp [Plant.updTask]

theorem Plant.task?_updTask_other {t u : TaskNo} (h : t ≠ u) (f : Task → Task) (x : Plant) :
    (x.updTask t f).task? u = x.task? u := by simp [Plant.updTask, Plant.task?_putTask_other h]

@[simp] theorem Plant.drive_putDrive_same (d : DriveNo) (r : Drive) (x : Plant) : (x.putDrive d r).drive d = r := by
  simp [Plant.drive, Plant.putDrive]

theorem Plant.drive_putDrive_other {d c : DriveNo} (h : d ≠ c) (r : Drive) (x : Plant) :
    (x.putDrive d r).drive c = x.drive c := by simp [Plant.drive, Plant.putDrive, get_vset_other _ h]

@[simp] theorem Plant.drive_updDrive_same (d : DriveNo) (f : Drive → Drive) (x : Plant) :
    (x.updDrive d f).drive d = f (x.drive d) := by simp [Plant.updDrive]

theorem Plant.drive_updDrive_other {d c : DriveNo} (h : d ≠ c) (f : Drive → Drive) (x : Plant) :
    (x.updDrive d f).drive c = x.drive c := by simp [Plant.updDrive, Plant.drive_putDrive_other h]

@[simp] theorem Plant.acc_updAcc_same (a : Acc) (f : AccCtx → AccCtx) (x : Plant) : (x.updAcc a f).acc a = f (x.acc a) := by
  cases a <;> rfl

@[simp] theorem Plant.acc_updAcc_other (a : Acc) (f : AccCtx → AccCtx) (x : Plant) :
    (x.updAcc a f).acc a.other = x.acc a.other := by cases a <;> rfl

@[simp] theorem Plant.entry_setEntry_same (n : Fin 8) (s : Slot) (x : Plant) : (x.setEntry n s).entry n = s := by
  simp [Plant.entry, Plant.setEntry]

theorem Plant.entry_setEntry_other {n m : Fin 8} (h : n ≠ m) (s : Slot) (x : Plant) :
    (x.setEntry n s).entry m = x.entry m := by simp [Plant.entry, Plant.setEntry, get_vset_other _ h]

@[simp] theorem Plant.service_setService_same (n : Fin 8) (s : Slot) (x : Plant) : (x.setService n s).service n = s := by
  simp [Plant.service, Plant.setService]

theorem Plant.service_setService_other {n m : Fin 8} (h : n ≠ m) (s : Slot) (x : Plant) :
    (x.setService n s).service m = x.service m := by simp [Plant.service, Plant.setService, get_vset_other _ h]

@[simp] theorem Plant.handoff_setHandoff_same (n : Fin 4) (s : Slot) (x : Plant) : (x.setHandoff n s).handoff n = s := by
  simp [Plant.handoff, Plant.setHandoff]

theorem Plant.handoff_setHandoff_other {n m : Fin 4} (h : n ≠ m) (s : Slot) (x : Plant) :
    (x.setHandoff n s).handoff m = x.handoff m := by simp [Plant.handoff, Plant.setHandoff, get_vset_other _ h]

/-! ### The cell map -/

/-- A cell map in its one form: cells strictly rising, no entry that an unlisted cell reads as. -/
def cellsOk (l : List CellRec) : Prop :=
  l.Pairwise (fun a b => a.num < b.num) ∧ ∀ r ∈ l, ¬ (r.occ = .empty ∧ r.homeOf = none)

theorem mem_insertCell (r : CellRec) (l : List CellRec) (w : CellRec) : w ∈ insertCell r l ↔ w = r ∨ w ∈ l := by
  induction l with
  | nil => simp [insertCell]
  | cons v vs ih =>
    unfold insertCell
    split
    · simp
    · simp only [List.mem_cons, ih]; tauto

theorem insertCell_rising {r : CellRec} {l : List CellRec} (h : l.Pairwise (fun a b => a.num < b.num))
    (hr : ∀ w ∈ l, w.num ≠ r.num) : (insertCell r l).Pairwise (fun a b => a.num < b.num) := by
  induction l with
  | nil => simp [insertCell]
  | cons v vs ih =>
    obtain ⟨hv, hs⟩ := List.pairwise_cons.mp h
    unfold insertCell
    split
    · rename_i hlt
      refine List.pairwise_cons.mpr ⟨fun w hw => ?_, h⟩
      rcases List.mem_cons.mp hw with rfl | hw
      · exact hlt
      · exact Nat.lt_trans hlt (hv w hw)
    · rename_i hge
      refine List.pairwise_cons.mpr ⟨fun w hw => ?_, ih hs fun w hw => hr w (List.mem_cons_of_mem _ hw)⟩
      rcases (mem_insertCell r vs w).mp hw with rfl | hw
      · exact Nat.lt_of_le_of_ne (Nat.le_of_not_lt hge) (hr v (by simp))
      · exact hv w hw

/-- Writing a cell keeps the map in its form. -/
theorem writeCell_ok (r : CellRec) {l : List CellRec} (h : cellsOk l) : cellsOk (writeCell r l) := by
  have hf : (l.filter fun w => w.num ≠ r.num).Pairwise (fun a b => a.num < b.num) := h.1.filter _
  unfold writeCell
  split
  · exact ⟨hf, fun w hw => h.2 w (List.mem_of_mem_filter hw)⟩
  · rename_i hr
    refine ⟨insertCell_rising hf fun w hw => by simpa using (List.mem_filter.mp hw).2, fun w hw => ?_⟩
    rcases (mem_insertCell _ _ _).mp hw with rfl | hw
    · exact hr
    · exact h.2 w (List.mem_of_mem_filter hw)

theorem find_insertCell_same (r : CellRec) (l : List CellRec) (hr : ∀ w ∈ l, w.num ≠ r.num) :
    (insertCell r l).find? (fun w => w.num = r.num) = some r := by
  induction l with
  | nil => simp [insertCell]
  | cons v vs ih =>
    unfold insertCell
    split
    · simp
    · rw [List.find?_cons_of_neg (by simpa using hr v (by simp))]
      exact ih fun w hw => hr w (List.mem_cons_of_mem _ hw)

theorem find_insertCell_other {r : CellRec} {c : CellNo} (h : r.num ≠ c) (l : List CellRec) :
    (insertCell r l).find? (fun w => w.num = c) = l.find? (fun w => w.num = c) := by
  induction l with
  | nil => simp [insertCell, h]
  | cons v vs ih =>
    unfold insertCell
    split
    · rw [List.find?_cons_of_neg (by simpa using h)]
    · simp only [List.find?_cons, ih]

theorem find_filter_other {n c : CellNo} (h : n ≠ c) (l : List CellRec) :
    (l.filter fun w => w.num ≠ n).find? (fun w => w.num = c) = l.find? (fun w => w.num = c) := by
  induction l with
  | nil => rfl
  | cons v vs ih =>
    by_cases hv : v.num = n
    · rw [List.filter_cons_of_neg (by simpa using hv), List.find?_cons_of_neg (by simpa [hv] using h)]
      exact ih
    · rw [List.filter_cons_of_pos (by simpa using hv)]
      simp only [List.find?_cons, ih]

/-- A cell just written reads as written. -/
@[simp] theorem Plant.cell_putCell_same (r : CellRec) (x : Plant) : (x.putCell r).cell r.num = r := by
  unfold Plant.cell Plant.putCell writeCell
  by_cases hr : r.occ = .empty ∧ r.homeOf = none
  · have hn : (x.ltu.cells.filter fun w => w.num ≠ r.num).find? (fun w => w.num = r.num) = none := by
      simp [List.find?_eq_none]
    simp only [if_pos hr, hn]
    obtain ⟨n, o, ho⟩ := r
    simp at hr
    simp [hr]
  · simp only [if_neg hr]
    rw [find_insertCell_same r _ fun w hw => by simpa using (List.mem_filter.mp hw).2]

/-- Every other cell reads as before. -/
theorem Plant.cell_putCell_other {r : CellRec} {c : CellNo} (h : r.num ≠ c) (x : Plant) :
    (x.putCell r).cell c = x.cell c := by
  have hw : (writeCell r x.ltu.cells).find? (fun w => w.num = c) = x.ltu.cells.find? (fun w => w.num = c) := by
    unfold writeCell
    split
    · exact find_filter_other h _
    · rw [find_insertCell_other h, find_filter_other h]
  simp only [Plant.cell, Plant.putCell, hw]

/-! ### The volume table -/

/-- The entry just put is found under its serial. -/
theorem find_insertVolume_same (v : Volume) {l : List Volume} (h : l.Pairwise (fun a b => a.serial < b.serial)) :
    (insertVolume v l).find? (fun w => w.serial = v.serial) = some v := by
  induction l with
  | nil => simp [insertVolume]
  | cons w ws ih =>
    unfold insertVolume
    split
    · simp
    · split
      · simp
      · rename_i hne
        rw [List.find?_cons_of_neg (by simpa using fun e => hne e.symm)]
        exact ih (List.pairwise_cons.mp h).2

/-- An entry of another serial is found as before. -/
theorem find_insertVolume_other {v : Volume} {s : Serial} (h : v.serial ≠ s) (l : List Volume) :
    (insertVolume v l).find? (fun w => w.serial = s) = l.find? (fun w => w.serial = s) := by
  induction l with
  | nil => simp [insertVolume, h]
  | cons w ws ih =>
    unfold insertVolume
    split
    · rw [List.find?_cons_of_neg (by simpa using h)]
    · split
      · rename_i he
        rw [List.find?_cons_of_neg (by simpa using h), List.find?_cons_of_neg (by simpa [← he] using h)]
      · simp only [List.find?_cons, ih]

theorem mem_insertVolume {v w : Volume} {l : List Volume} (h : w ∈ insertVolume v l) : w = v ∨ w ∈ l := by
  induction l with
  | nil => simpa [insertVolume] using h
  | cons u us ih =>
    unfold insertVolume at h
    split at h
    · simpa using h
    · split at h
      · rcases List.mem_cons.mp h with rfl | h
        · exact .inl rfl
        · exact .inr (List.mem_cons_of_mem _ h)
      · rcases List.mem_cons.mp h with rfl | h
        · simp
        · rcases ih h with rfl | h
          · exact .inl rfl
          · exact .inr (List.mem_cons_of_mem _ h)

/-- Putting an entry keeps the table in strictly rising serial order, one entry a serial (R4). -/
theorem insertVolume_rising (v : Volume) {l : List Volume} (h : l.Pairwise (fun a b => a.serial < b.serial)) :
    (insertVolume v l).Pairwise (fun a b => a.serial < b.serial) := by
  induction l with
  | nil => simp [insertVolume]
  | cons w ws ih =>
    obtain ⟨hw, hs⟩ := List.pairwise_cons.mp h
    unfold insertVolume
    split
    · rename_i hlt
      refine List.pairwise_cons.mpr ⟨fun u hu => ?_, h⟩
      rcases List.mem_cons.mp hu with rfl | hu
      · exact hlt
      · exact lt_trans hlt (hw u hu)
    · split
      · rename_i he
        exact List.pairwise_cons.mpr ⟨fun u hu => he ▸ hw u hu, hs⟩
      · rename_i hge hne
        refine List.pairwise_cons.mpr ⟨fun u hu => ?_, ih hs⟩
        rcases mem_insertVolume hu with rfl | hu
        · exact lt_of_le_of_ne (not_lt.mp hge) fun e => hne e.symm
        · exact hw u hu

/-- A change of every record that keeps its serial is found under the same serial. -/
theorem find_map_serial {f : Volume → Volume} (h : ∀ v, (f v).serial = v.serial) (r : Serial) (l : List Volume) :
    (l.map f).find? (fun v => v.serial = r) = (l.find? fun v => v.serial = r).map f := by
  induction l with
  | nil => rfl
  | cons v vs ih =>
    by_cases e : v.serial = r
    · simp [e, h]
    · simp [e, h, ih]

/-- The evicted: what `evict` makes of a record. -/
def Volume.evicted (keep : Option Serial) (l : Location) (v : Volume) : Volume :=
  if l.shared = false ∧ v.loc = l ∧ some v.serial ≠ keep then v.at_ .unknown else v

/-- All that `evict` does: a record at a place that holds one volume, other than the one kept, becomes UNKNOWN. -/
theorem Plant.evict_volumes (keep : Option Serial) (l : Location) (x : Plant) :
    (x.evict keep l).ltu.volumes = x.ltu.volumes.map (·.evicted keep l) := by
  unfold Plant.evict
  split
  · rename_i h
    have e : (fun v : Volume => v.evicted keep l) = id := by funext v; simp [Volume.evicted, h]
    simp [e]
  · rename_i h
    simp [Volume.evicted, h]

/-- A record after an `evict`, by its serial. -/
theorem Plant.vol?_evict (keep : Option Serial) (l : Location) (r : Serial) (x : Plant) :
    (x.evict keep l).vol? r = (x.vol? r).map (·.evicted keep l) := by
  unfold Plant.vol?
  rw [Plant.evict_volumes]
  exact find_map_serial (fun v => by unfold Volume.evicted; split <;> rfl) r _

/-- `evict` writes no table but the volume table. -/
theorem Plant.evict_cells (keep : Option Serial) (l : Location) (x : Plant) : (x.evict keep l).ltu.cells = x.ltu.cells := by
  unfold Plant.evict; split <;> rfl

/-! ### Legs that a new plan takes the place of -/

@[simp] theorem Leg.supersede_id (t : TaskNo) (l : Leg) : (l.supersede t).id = l.id := by
  unfold Leg.supersede; split <;> rfl

@[simp] theorem Leg.supersede_src (t : TaskNo) (l : Leg) : (l.supersede t).src = l.src := by
  unfold Leg.supersede; split <;> rfl

@[simp] theorem Leg.supersede_dst (t : TaskNo) (l : Leg) : (l.supersede t).dst = l.dst := by
  unfold Leg.supersede; split <;> rfl

/-- A superseded leg is no leg of its task's plan. -/
theorem Leg.supersede_owner (t : TaskNo) (l : Leg) : (l.supersede t).owner ≠ .task t := by
  unfold Leg.supersede
  split
  · simp
  · assumption

/-- A superseded leg of another owner is left as it was. -/
theorem Leg.supersede_other {t : TaskNo} {l : Leg} (h : l.owner ≠ .task t) : l.supersede t = l := by
  simp [Leg.supersede, h]

/-- After `supersede`, no leg in hand belongs to the task's plan. -/
theorem Plant.supersede_hand (e : Env) (t : TaskNo) (a : Acc) (x : Plant) (l : Leg)
    (h : ((x.supersede e t).acc a).leg = some l) : l.owner ≠ .task t := by
  unfold Plant.supersede Plant.acc at h
  cases a <;> simp only [Option.map_eq_some_iff] at h <;> obtain ⟨m, -, rfl⟩ := h <;> exact Leg.supersede_owner t m

/-! ### Returning tasks -/

/-- A task without a pending final status returns nowhere. -/
@[simp] theorem Task.returns_none {k : Task} (h : k.pending = none) : k.returns = false := by
  simp [Task.returns, h]

/-- A task that has been given the RETURN plan returns while its final status is pending. -/
theorem Task.returns_returning {k : Task} (h : k.returning = true) : k.returns = k.pending.isSome := by
  simp [Task.returns, h]

end Sys2Proof.Machine
end

