-- ==== Sys2Proof/Tests/Slice0.lean ====
section
/-!
SUPPORT. Tests: ill-formed terms that `Instr.wellFormed` refuses; for each statement with hypotheses a named theorem with
a state and operands that meet all of them, clause by clause; and a few results worked out by hand from the manual.
-/
namespace Sys2Proof.Tests
open Sys2Proof.Machine

/-! ### Ill-formed terms -/

def hdr : Hdr := { path := 0, tag := 7, sized := true }
def short : Hdr := { path := 0, tag := 7, sized := false }

/-- The characters 000005, serial 5. -/
def five : List Byte := [0x30, 0x30, 0x30, 0x30, 0x30, 0x35]

theorem test_serial_of_five_bytes_refused : (Instr.readVolume hdr [0x30, 0x30, 0x30, 0x30, 0x30]).wellFormed = false := by decide
theorem test_short_frame_may_carry_fewer : (Instr.readVolume short []).wellFormed = true := by decide
theorem test_mount_of_seven_bytes_refused : (Instr.mount hdr (five ++ [0]) 0 0 0).wellFormed = false := by decide
theorem test_read_of_seventeen_refused :
    (Instr.readDone .A 0 (List.replicate 17 .empty)).wellFormed = false ∧ (Instr.readDone .A 0 []).wellFormed = false := by
  decide
theorem test_prompt_zero_refused :
    (Instr.promptEscalation 0).wellFormed = false ∧ (Instr.promptDeadlineExpiry 0).wellFormed = false := by decide
theorem test_known_code_refused : (Instr.unknownCommand hdr 0x3A).wellFormed = false := by decide
theorem test_order_kind_six_refused : (Instr.badOrder hdr 6).wellFormed = false := by decide
theorem test_long_template_refused :
    (Instr.loadTemplate hdr 0 (List.replicate 62 0x41) (List.replicate 62 0x41)).wellFormed = false := by decide
theorem test_shift_table_of_42_refused : (Instr.loadShifts hdr (List.replicate 42 (0, 0))).wellFormed = false := by decide
theorem test_pairs_of_26_refused : (Instr.clearFlags hdr (List.replicate 26 (0, 0))).wellFormed = false := by decide
theorem test_fence_serial_refused : (Instr.fenceWrite hdr ⟨0, five, [], 0, 0, 0⟩).wellFormed = false := by decide
theorem test_whole_frame_is_not_malformed : (Instr.malformedFrame .C []).wellFormed = false := by decide

/-! ### States -/

/-- A change of the blocks the work moves. -/
def onPlant (f : Plant → Plant) (s : State) : State := { s with plant := f s.plant }

/-- The part right after reset but in another library state. -/
def at_ (l : LibState) : State :=
  onPlant (fun x => { x with mgu := { x.mgu with lib := l, imageStart := none } }) State.reset

def running : State := at_ .running

/-- A state whose pin, mask and library state are those of `running` takes management commands. -/
theorem manages_of {s : State} (f : s.env.resetPin = false) (m : s.env.set.mgmtMask = running.env.set.mgmtMask)
    (l : s.plant.mgu.lib = .running) : s.manages hdr :=
  ⟨f, by rw [m]; decide, by rw [l]; decide, rfl⟩

theorem manages_running : running.manages hdr := manages_of rfl rfl rfl
theorem manages_loading : (at_ .loading).manages hdr := ⟨rfl, by decide, by decide, rfl⟩
theorem free_running (t : TaskNo) : running.plant.task? t = none := by revert t; decide

/-- Changes of one entry of a table. -/
def withDrive (d : DriveNo) (f : Drive → Drive) : State → State := onPlant (·.updDrive d f)
def withTask (t : TaskNo) (k : Task) : State → State := onPlant (·.putTask t (some k))
def withVol (v : Volume) : State → State := onPlant (·.putVol v)
def withAcc (a : Acc) (f : AccCtx → AccCtx) : State → State := onPlant (·.updAcc a f)
def withOcc (c : CellNo) (o : Occ) : State → State := onPlant (·.putOcc c o)
def withEnv (f : Env → Env) (s : State) : State := { s with env := f s.env }

/-- A resident, serial `s`, at a place and bound or not. -/
def vol (s : Serial) (l : Location) (b : Option TaskNo) : Volume :=
  { Volume.visitor s 0 with cls := .resident, loc := l, bound := b }

/-- A mount of path 0, tag 9, of volume 5 for drive 31. -/
def mountTask (st : TaskState) : Task :=
  { Task.new .mount (.path 0 9) 0 with serial := some 5, drive := some 31, state := st, account := 255 }

theorem task_of (t u : TaskNo) (k : Task) (s : State) :
    (withTask t k s).plant.task? u = if u = t then some k else s.plant.task? u := by
  by_cases h : u = t
  · subst h; simp [withTask, onPlant, Plant.task?, Plant.putTask]
  · rw [if_neg h]; exact get_vset_other _ (fun e => h e.symm) _

/-! ### Witnesses: steps, resets and the clock -/

theorem witness_StepTakesTheFrontCommand : State.reset.pending = [] := rfl

theorem witness_PowerOnAndHardResetBeginStarting :
    (withEnv ({ · with resetPin := true }) State.reset).env.resetPin = true ∧ isReset .tick = false := by decide

theorem value_of_two_bytes (n : Nat) (h : n < 65536) : beValue (beBytes 2 n) = n := by
  simp [beValue, beBytes]; omega

/-- An image of the right marker, length and check word, its other bytes 0. -/
theorem some_image_is_good : ∃ m, imageGood m = true := by
  obtain ⟨r, hr⟩ : ∃ r : List Byte, r.length = 1846 := ⟨List.replicate 1846 0, List.length_replicate⟩
  have hb : ([0x4C#8, 0x36#8, 0x07#8, 0x36#8] ++ r).length = 1850 := by simp [hr]
  generalize hB : [0x4C#8, 0x36#8, 0x07#8, 0x36#8] ++ r = b at hb
  refine ⟨b ++ beBytes 2 (crc16 b).toNat, ?_⟩
  have hl : (beBytes 2 (crc16 b).toNat).length = 2 := by simp [beBytes]
  have ht : (b ++ beBytes 2 (crc16 b).toNat).take 1850 = b := by rw [List.take_left' hb]
  have hd : bytesAt (b ++ beBytes 2 (crc16 b).toNat) 1850 2 = beBytes 2 (crc16 b).toNat := by
    rw [bytesAt, List.drop_left' hb, List.take_of_length_le (by omega)]
  have hv := value_of_two_bytes (crc16 b).toNat (by have := (crc16 b).isLt; omega)
  simp only [imageGood, ht, hd, hv, List.length_append, hb, hl]
  simp [← hB, bytesAt, halfAt, beValue]

theorem witness_ImageReadAppliesOrDefaults :
    let s (k : Tick) := withEnv ({ · with tick := k }) State.reset
    (∀ k, (s k).free ∧ (s k).plant.mgu.lib = .starting ∧ (s k).plant.mgu.imageStart = some 0)
    ∧ (∃ m, imageGood m = true) ∧ elapsed 0 (s 50).env.tick ≤ 50 ∧ imageGood [] = false ∧ 50 < elapsed 0 (s 51).env.tick
    ∧ reached (s 50).env.tick (0 + ticks 50) = true ∧ reached (s 49).env.tick (0 + ticks 50) = false
    ∧ (running.free ∧ running.plant.mgu.imageStart = none)
    ∧ (∀ k, (s k).plant.pru.table = [] ∧ (s k).plant.pru.backlog = []
        ∧ ∀ c, (s k).plant.pru.con c = { shown := none, urgency := none, lines := none }) :=
  ⟨fun _ => ⟨rfl, rfl, rfl⟩, some_image_is_good, by decide, by decide, by decide, by decide, by decide, ⟨rfl, rfl⟩,
    fun _ => ⟨rfl, rfl, fun c => by cases c <;> rfl⟩⟩

theorem witness_TicksAdvanceTheClock :
    let s (k : Nat) := withEnv ({ · with sub := k }) State.reset
    (s 598).free ∧ (s 598).env.sub < 599 ∧ (s 599).free ∧ (s 599).env.sub ≤ 599 ∧ (s 599).env.sub = 599 :=
  ⟨rfl, by decide, rfl, by decide, rfl⟩

theorem test_tick_turns_the_day :
    exec .tick (withEnv ({ · with sub := 599, minute := 1439, tick := BitVec.allOnes 48 }) State.reset)
      = .next (withEnv ({ · with sub := 0, minute := 0, tick := 0 }) State.reset) := rfl

/-! ### Witnesses: the fence -/

theorem witness_FenceIsJudgedAndWritten :
    State.reset.env.fence.working.invert = false
    ∧ (withEnv ({ · with fence.working.invert := true }) State.reset).env.fence.working.invert = true := ⟨rfl, rfl⟩

/-- The example of R135: ranges 100000–199999 and A00000–AZZZZZ enabled, 500000–5ZZZZZ disabled. -/
theorem test_fence_example :
    let n (l : List Byte) : Serial := (serialOf l).getD 0
    let r : Vector FenceRange 8 := (((Vector.replicate 8 { first := 0, last := 0, enabled := false }).set 0
      { first := n [0x31, 0x30, 0x30, 0x30, 0x30, 0x30], last := n [0x31, 0x39, 0x39, 0x39, 0x39, 0x39], enabled := true }).set 1
      { first := n [0x41, 0x30, 0x30, 0x30, 0x30, 0x30], last := n [0x41, 0x5A, 0x5A, 0x5A, 0x5A, 0x5A], enabled := true }).set 2
      { first := n [0x35, 0x30, 0x30, 0x30, 0x30, 0x30], last := n [0x35, 0x5A, 0x5A, 0x5A, 0x5A, 0x5A], enabled := false }
    let f (i : Bool) : FenceCopy := { ranges := r, invert := i, mode := .unlocked }
    let s := [n [0x31, 0x35, 0x30, 0x30, 0x33, 0x33], n [0x31, 0x41, 0x30, 0x30, 0x30, 0x30],
      n [0x41, 0x39, 0x5A, 0x5A, 0x5A, 0x5A], n [0x35, 0x41, 0x31, 0x32, 0x33, 0x34]]
    s.map (f false).fenced = [true, false, true, false] ∧ s.map (f true).fenced = [false, true, false, true] := by decide

def noPart : FenceFields := ⟨0xFF, List.replicate 6 0xFF, List.replicate 6 0xFF, 0xFF, 0xFF, 0xFF⟩
def allParts : FenceParts := { range := some (7, { first := 5, last := 5, enabled := true }), invert := some true, mode := some .held }

/-- A part under a lock mode, with a persist in flight or none. -/
def fenced (m : LockMode) (p : Option Persist) : State :=
  withEnv (fun e => { e with fence := { e.fence with working := { e.fence.working with mode := m }, persist := p } }) running

def persist30 (m : LockMode) : Persist := { done := 30, image := { factoryFence with mode := m } }

theorem witness_FenceIsJudgedAndWritten_write :
    (∀ m p, (fenced m p).manages hdr)
    ∧ FenceParts.of { noPart with index := 8, first := five, last := five, enabled := 0 } = none
    ∧ FenceParts.of noPart = some ⟨none, none, none⟩
    ∧ FenceParts.of { noPart with mode := 3 } = some ⟨none, none, some .permanent⟩
    ∧ FenceParts.of ⟨7, five, five, 0, 1, 2⟩ = some allParts ∧ allParts.range ≠ none ∧ allParts.mode ≠ some .permanent
    ∧ (fenced .held none).env.locked = true
    ∧ (fenced .unlocked (some (persist30 .unlocked))).env.locked = false
    ∧ (fenced .unlocked (some (persist30 .unlocked))).env.fence.persist ≠ none
    ∧ (fenced .unlocked none).env.locked = false ∧ (fenced .unlocked none).env.fence.persist = none :=
  ⟨fun _ _ => manages_of rfl rfl rfl, by decide, by decide, by decide, by decide, by decide, by decide,
    by decide, by decide, by decide, by decide, by decide⟩

/-- The bytes of a fence command at the ends of their ranges. -/
theorem witness_FenceIsJudgedAndWritten_bytes :
    FenceParts.of { noPart with mode := 4 } = none ∧ FenceParts.of { noPart with invert := 2 } = none
    ∧ FenceParts.of { noPart with mode := 0, invert := 0 } = some ⟨none, some false, some .unlocked⟩
    ∧ FenceParts.of ⟨7, five, five, 2, 0xFF, 0xFF⟩ = none
    ∧ FenceParts.of ⟨7, five, List.replicate 6 0x30, 0, 0xFF, 0xFF⟩ = none
    ∧ FenceParts.of ⟨7, five, List.replicate 6 0xFF, 0, 0xFF, 0xFF⟩ = none := by decide

theorem witness_FencePersistStoresTheWholeCopy :
    let s (k : Tick) := withEnv ({ · with tick := k }) (fenced .unlocked (some (persist30 .unlocked)))
    allParts.mode = some .held ∧ FenceParts.of { noPart with mode := 3 } = some ⟨none, none, some .permanent⟩
    ∧ (∀ k, (s k).free ∧ (s k).env.fence.persist = some (persist30 .unlocked))
    ∧ reached (s 30).env.tick (persist30 .unlocked).done = true ∧ reached (s 29).env.tick (persist30 .unlocked).done = false :=
  ⟨rfl, by decide, fun _ => ⟨rfl, rfl⟩, by decide, by decide⟩

theorem witness_PermanentFenceNeverChanges :
    let q := persist30 .permanent
    let s := withEnv ({ · with tick := 30 }) (fenced .permanent (some q))
    let p := withEnv (fun e => { e with fence.stored.mode := .permanent }) (fenced .permanent none)
    (s.free ∧ s.env.fence.persist = some q ∧ q.image.mode = .permanent ∧ reached s.env.tick q.done = true)
    ∧ (FenceParts.writable allParts = true ∧ FenceParts.persistable ⟨none, none, none⟩ = true)
    ∧ (p.env.fence.ok ∧ p.env.fence.stored.mode = .permanent ∧ ∃ t, exec .tick p = .next t)
    ∧ (∃ t, exec (.restart hdr) running = .next t) ∧ State.reset.env.fence.stored.mode ≠ .permanent :=
  ⟨⟨rfl, rfl, rfl, by decide⟩, ⟨by decide, by decide⟩,
    ⟨⟨by decide, fun _ => ⟨rfl, rfl⟩, fun q h => by cases h⟩, rfl, ⟨_, rfl⟩⟩, ⟨_, rfl⟩, by decide⟩

theorem reset_fence_ok : State.reset.env.fence.ok := ⟨by decide, fun _ => ⟨rfl, rfl⟩, fun q h => by cases h⟩

theorem witness_FenceInvariantKeptByEveryStep : State.reset.env.fence.ok ∧ ∃ t, step State.reset = .next t :=
  ⟨reset_fence_ok, ⟨_, rfl⟩⟩

/-! ### Witnesses: settings -/

theorem witness_SettingsAreTaken :
    running.manages hdr ∧ (49#16).toNat < 50 ∧ 600 < (601#16).toNat ∧ 50 ≤ (600#16).toNat ∧ (600#16).toNat ≤ 600
    ∧ ((2#8 = 2#8 ∧ 256 = 256) ∧ 3 ≤ (3#8).toNat) ∧ ((1439#16).toNat ≤ 1439 ∧ 1439 < (1440#16).toNat)
    ∧ ((99#16).toNat < 100 ∧ 100 ≤ (100#16).toNat)
    ∧ ((14#8).getLsbD hdr.path.val = false ∧ 15 < (17#8).toNat ∧ (15#8).getLsbD hdr.path.val = true ∧ (15#8).toNat ≤ 15) :=
  ⟨manages_running, by decide⟩

/-- Twelve inserts, the most a line may have. -/
def twelve : List Byte := List.replicate 12 0x86#8

theorem witness_TimesTemplatesRatesShiftsAndSweepAreLoaded :
    running.manages hdr ∧ (13 < (14#8).toNat ∧ 3 < (4#8).toNat ∧ (1#16 ≠ 0 ∧ 13#8 = 13))
    ∧ ((13#8).toNat = (13 : Fin 14).val ∧ (3#8).toNat ≤ 3 ∧ 0#16 = 0)
    ∧ (14 < (15#8).toNat ∧ segmentsOf [0x00] = none
        ∧ ∃ k, segmentsOf (List.replicate 13 0x86#8) = some k ∧ 12 < k.length)
    ∧ ((14#8).toNat = (14 : Fin 15).val ∧ segmentsOf twelve = some (List.replicate 12 (.ins .acc 1))
        ∧ (List.replicate 12 (Segment.ins .acc 1)).length ≤ 12) :=
  ⟨manages_running, by decide, by decide, ⟨by decide, by decide, ⟨_, rfl, by decide⟩⟩, by decide⟩

/-- Characters and inserts at the ends of their codes, and lines at and past the fortieth character. -/
theorem witness_TimesTemplatesRatesShiftsAndSweepAreLoaded_lines :
    let wide : Segment → Nat := segmentWidth
    let t (n : Nat) : Segment := .lit (List.replicate n 0x41)
    (segmentsOf [0x8A] = none ∧ segmentsOf [0x5B] = none ∧ segmentsOf [0x23, 0x89, 0x20, 0x5A]
      = some [.lit [0x23], .ins .hold 4, .lit [0x20, 0x5A]])
    ∧ ((∀ n, wide (t n) = n) ∧ wide (.ins .vol 6) = 6)
    ∧ (∀ g ∈ [t 38, .ins .vol 6, t 1], 0 < wide g) ∧ 2 + ([t 38].map wide).sum = 40 ∧ 2 < wide (.ins .vol 6)
    ∧ (∀ g ∈ [t 40, t 1], 0 < wide g) ∧ 0 + ([t 40].map wide).sum = 40 ∧ ([t 40].map wide).sum ≤ 40
    ∧ 6 + ([t 34].map wide).sum = 40 ∧ 6 < wide (t 7) :=
  ⟨by decide, ⟨fun n => List.length_replicate, rfl⟩, by decide, by decide, by decide, by decide, by decide, by decide,
    by decide, by decide⟩

/-- Four periods, in no order, with their extreme values. -/
def four : List (BitVec 16 × Byte) := [(1439, 65), (0, 64), (7, 0), (6, 1)]

theorem witness_TimesTemplatesRatesShiftsAndSweepAreLoaded_rates :
    running.manages hdr ∧ (7 < (8#8).toNat ∧ 0#16 = 0 ∧ 36000 < (36001#16).toNat)
    ∧ ((7#8).toNat = (7 : Fin 8).val ∧ 1 ≤ (36000#16).toNat ∧ (36000#16).toNat ≤ 36000)
    ∧ (4 < (List.replicate 5 (0#16, 0#8)).length ∧ (∃ p ∈ [(1440#16, 0#8)], 1439 < p.1.toNat)
        ∧ ¬([(5#16, 0#8), (5#16, 1#8)].map fun p => p.1).Nodup)
    ∧ (four.length ≤ 4 ∧ (∀ p ∈ four, p.1.toNat ≤ 1439) ∧ (four.map fun p => p.1).Nodup)
    ∧ (63 < (64#8).toNat ∧ 3 < (4#8).toNat
        ∧ ((1#8).getLsbD 0 = true ∧ storageBay (8#8).toNat = false ∧ (4#8).toNat < (5#8).toNat ∧ 15 < (16#8).toNat))
    ∧ ((63#8).toNat = (63 : Fin 64).val ∧ (3#8).toNat ≤ 3 ∧ (3#8).getLsbD 0 = true ∧ storageBay (127#8).toNat = true
        ∧ (15#8).toNat ≤ (15#8).toNat ∧ (15#8).toNat ≤ 15)
    ∧ ((2#8).toNat ≤ 3 ∧ (2#8).getLsbD 0 = false) :=
  ⟨manages_running, ⟨by decide, by decide, by simp⟩, ⟨by decide, by simp, by simp⟩, by decide, by simp [four], ⟨by decide, by decide, by decide⟩, by decide, by decide⟩

/-- A path 3 with `n` orders queued and its pace state. -/
def queued (n : Nat) (p : Bool) : State :=
  { running with oiu := { running.oiu with
      queues := vset running.oiu.queues 3 (List.replicate n { tag := 9, kind := .scratch, drive := 0, account := 0 }),
      paced := vset running.oiu.paced 3 p } }

theorem witness_PaceFollowsTheMarks :
    running.manages hdr ∧ (3 < (4#8).toNat ∧ (3#8 = 3 ∧ 3#8 ≠ 2 ∧ 3#8 ≠ 4 ∧ 3#8 ≠ 6))
    ∧ (3#8 = 3 ∧ (6#8 = 2 ∨ 6#8 = 4 ∨ 6#8 = 6) ∧ PaceSet.D 2 6 = .D (max 2 (min 15 (0#8).toNat)) (6#8).toNat)
    ∧ ((queued 12 false).oiu.paced.get 3 = false ∧ (queued 12 false).env.set.pace.pace ≤ ((queued 12 false).oiu.queues.get 3).length)
    ∧ ((queued 6 true).oiu.paced.get 3 = true ∧ ((queued 6 true).oiu.queues.get 3).length ≤ (queued 6 true).env.set.pace.resume)
    ∧ ((queued 11 false).oiu.paced.get 3 = false ∧ ((queued 11 false).oiu.queues.get 3).length < (queued 11 false).env.set.pace.pace)
    ∧ ((queued 7 true).oiu.paced.get 3 = true ∧ (queued 7 true).env.set.pace.resume < ((queued 7 true).oiu.queues.get 3).length) :=
  ⟨manages_running, by decide⟩

theorem test_set_pace_d_clamps : paceSetOf 3 1 6 = some (.D 2 6) ∧ (PaceSet.D 2 6).resume = 0 := by decide

theorem reset_env_ok : State.reset.env.ok := by
  refine ⟨by decide, by decide, by decide, by decide, by decide, trivial, by decide, by decide, by decide, by decide,
    by decide, by decide, by decide, by decide, ⟨by decide, .nil, fun p h => by cases h⟩, by decide, ?_, by decide, by decide⟩
  intro n
  have : State.reset.env.set.sweep.get n = .fin := by revert n; decide
  rw [this]; trivial

/-! ### Witnesses: the library tables -/

theorem witness_SerialsBaysReachAndFreeCell_serials : serialOf five = some 5 := by decide

theorem test_serial_order_of_the_manual :
    (serialOf [0x30, 0x30, 0x41, 0x31, 0x30, 0x30]).getD 0 < (serialOf [0x30, 0x41, 0x30, 0x30, 0x30, 0x30]).getD 0
    ∧ serialOf [0x30, 0x30, 0x41, 0x31, 0x30, 0x61] = none := by decide

/-- Every storage cell in a state of its own. -/
def cellsBeing (f : CellNo → Occ) : State :=
  onPlant (fun x => { x with ltu := { x.ltu with
    cells := searchCells.map fun c => { num := c, occ := f c, homeOf := none } } }) running

theorem occ_being {f : CellNo → Occ} {c : CellNo} {x : Plant} (e : x.ltu.cells = (cellsBeing f).plant.ltu.cells)
    (hc : c ∈ searchCells) : (x.cell c).occ = f c := by
  unfold Plant.cell
  cases h : x.ltu.cells.find? (fun r => r.num = c) with
  | some r =>
    have hn := List.find?_some h
    rw [e] at h
    obtain ⟨d, _, rfl⟩ := List.mem_map.mp (List.mem_of_find?_eq_some h)
    exact congrArg f (of_decide_eq_true hn)
  | none =>
    rw [e] at h
    exact absurd (List.find?_eq_none.mp h _ (List.mem_map.mpr ⟨c, hc, rfl⟩)) (by simp)

theorem full_of {f : CellNo → Occ} {x : Plant} (n : ∀ c, f c ≠ .empty)
    (e : x.ltu.cells = (cellsBeing f).plant.ltu.cells) : x.freeCell = none := by
  unfold Plant.freeCell
  rw [List.find?_eq_none]
  intro c hc
  simp [occ_being e hc, n]

/-- Every storage cell holds a reel of no known volume. -/
def noCell : State := cellsBeing fun _ => .foreign

theorem noCell_is_full : noCell.plant.freeCell = none := full_of (f := fun _ => .foreign) (fun _ => nofun) rfl

theorem witness_SerialsBaysReachAndFreeCell :
    running.plant.freeCell = some 1008
    ∧ (validCell 2047 = true ∧ (running.plant.cell 2047).occ = .empty ∧ (running.plant.cell 2047).homeOf = none)
    ∧ noCell.plant.freeCell = none := ⟨by decide, by decide, noCell_is_full⟩

theorem witness_TablesReadWhatWasWrittenAndVolumesMove :
    let x := (withVol (vol 5 .outside none) running).plant
    x.ltu.volumes.Pairwise (fun a b => a.serial < b.serial) ∧ x.vol? 5 ≠ none ∧ x.vol? 6 = none
    ∧ (∀ w : Volume, (id w).serial = w.serial) ∧ (9 : CellNo) ≠ 8
    ∧ x.ltu.cells.Pairwise (fun a b => a.num < b.num) ∧ (∀ w ∈ x.ltu.cells, w.occ ≠ .empty ∨ w.homeOf ≠ none) := by
  refine ⟨by decide, by decide, by decide, fun _ => rfl, by decide, by decide, fun w h => by cases h⟩

/-- Volume 5 in cell 0, bound to task 47. -/
def inCell : State := withOcc 0 (.occupied 5) (withVol (vol 5 (.cell 0) (some 47)) running)

/-- Volume 5 in service slot 7, and in entry slot 7. -/
def inService : State :=
  onPlant (·.setService 7 (Slot.hold (.known 5) none)) (withVol (vol 5 (.service 7) none) running)
def inEntry : State := onPlant (·.setEntry 7 (Slot.hold (.known 5) none)) (withVol (vol 5 (.entry 7) none) running)

theorem witness_TablesReadWhatWasWrittenAndVolumesMove_moves :
    (inCell.plant.vol? 5 = some (vol 5 (.cell 0) (some 47)) ∧ (inCell.plant.cell 0).occ = .occupied 5
      ∧ Location.cell 2047 ≠ .cell 0)
    ∧ (inService.plant.vol? 5 = some (vol 5 (.service 7) none) ∧ (inService.plant.service 7).content = some (.known 5))
    ∧ (inEntry.plant.vol? 5 = some (vol 5 (.entry 7) none) ∧ (inEntry.plant.entry 7).content = some (.known 5))
    ∧ (let h := onPlant (·.setHandoff 3 (Slot.hold (.known 5) none)) (withVol (vol 5 (.handoff 3) none) running)
       h.plant.vol? 5 = some (vol 5 (.handoff 3) none) ∧ (h.plant.handoff 3).content = some (.known 5))
    ∧ (let g := withAcc .B ({ · with gripper := .known 5 }) (withVol (vol 5 (.gripper .B) none) running)
       g.plant.vol? 5 = some (vol 5 (.gripper .B) none) ∧ (g.plant.acc .B).gripper = .known 5)
    ∧ (let x := withVol (vol 6 (.cell 2047) none) (withVol (vol 7 .outside none) inCell)
       x.plant.vol? 6 = some (vol 6 (.cell 2047) none) ∧ (vol 6 (.cell 2047) none).loc = .cell 2047
       ∧ x.plant.vol? 7 = some (vol 7 .outside none) ∧ (vol 7 .outside none).loc ≠ .cell 2047 ∧ x.plant.vol? 8 = none) := by
  decide

/-- LOAD VOLUME of serial 5: a resident at OUTSIDE with no home given. -/
def fields : VolumeFields :=
  { serial := five, cls := 0, home := 0xFFFF, locKind := 6, locNum := 0, ring := 0, flags := 1, mounts := 0, footage := 0,
    fails := 0 }
def load : VolumeLoad := { serial := 5, cls := .resident, home := .absent, loc := .outside, ring := .ringless }

/-- 4,096 entries, none of serial 5. -/
def tableFull : State :=
  onPlant (fun x => { x with ltu := { x.ltu with volumes := List.replicate 4096 (vol 6 .outside none) } }) running

theorem witness_LoadVolumeIsRefusedInOrderOrApplied_refused :
    let at_ (l : VolumeLoad) (c : CellNo) : VolumeLoad := { l with loc := .cell c }
    (running.manages hdr ∧ inCell.manages hdr ∧ tableFull.manages hdr ∧ noCell.manages hdr)
    ∧ (serialOf [] = none ∧ ((2#8) ≠ 0 ∧ (2#8) ≠ 1) ∧ ((5#8) ≠ 0 ∧ (5#8) ≠ 6 ∧ (5#8) ≠ 7)) ∧ load.givenBy fields
    ∧ inCell.plant.vol? 5 = some (vol 5 (.cell 0) (some 47))
    ∧ ((withVol (vol 5 (.drive 0) none) running).plant.vol? 5 = some (vol 5 (.drive 0) none)
        ∧ (∀ c, Location.drive 0 ≠ .cell c) ∧ Location.drive 0 ≠ .outside ∧ Location.drive 0 ≠ .unknown)
    ∧ (tableFull.plant.vol? 5 = none ∧ 4096 ≤ tableFull.plant.ltu.volumes.length)
    ∧ (running.plant.entryLoads load ∧ (withOcc 2047 (.occupied 6) running).plant.entryLoads load
        ∧ (onPlant (·.setHomeOf 0 (some 6)) running).plant.entryLoads load)
    ∧ ((at_ load 2048).givenBy { fields with locKind := 0, locNum := 2048 } ∧ validCell 2048 = false)
    ∧ ((at_ load 2047).givenBy { fields with locKind := 0, locNum := 2047 } ∧ validCell 2047 = true
        ∧ ((withOcc 2047 (.reserved none 0) running).plant.cell 2047).occ = .reserved none 0
        ∧ ((withOcc 2047 (.occupied 6) running).plant.cell 2047).occ = .occupied 6)
    ∧ (VolumeLoad.givenBy { fields with cls := 1, home := 0xFFFE } { load with cls := .visitor, home := .choose }
        ∧ VolumeLoad.givenBy { fields with cls := 1, locKind := 0 } { load with cls := .visitor, loc := .cell 0 }
        ∧ running.plant.cellLoads load ∧ running.plant.cellLoads (at_ load 0))
    ∧ (VolumeLoad.givenBy { fields with home := 2048 } { load with home := .cell 2048 }
        ∧ VolumeLoad.givenBy { fields with home := 0 } { load with home := .cell 0 } ∧ validCell 0 = true
        ∧ ¬ (onPlant (·.setHomeOf 0 (some 6)) running).plant.homeFree load 0)
    ∧ (VolumeLoad.givenBy { fields with home := 0xFFFE } { load with home := .choose } ∧ noCell.plant.freeCell = none
        ∧ noCell.plant.entryLoads load ∧ noCell.plant.cellLoads load) := by
  have e : ∀ s : State, s.plant.ltu.volumes = [] → s.plant.entryLoads load := fun s h =>
    ⟨fun v hv => by simp [Plant.vol?, h] at hv, fun _ => by rw [h]; decide⟩
  refine ⟨⟨manages_running, manages_of rfl rfl rfl, manages_of rfl rfl rfl, manages_of rfl rfl rfl⟩, by decide,
    by unfold VolumeLoad.givenBy; decide, by decide, ⟨by decide, nofun, nofun, nofun⟩,
    ⟨List.find?_eq_none.mpr fun v h => by rw [List.eq_of_mem_replicate h]; decide, List.length_replicate.ge⟩,
    ⟨e _ rfl, e _ rfl, e _ rfl⟩, by unfold VolumeLoad.givenBy; decide, by unfold VolumeLoad.givenBy; decide,
    ⟨by unfold VolumeLoad.givenBy; decide, by unfold VolumeLoad.givenBy; decide, nofun, fun c h => ?_⟩,
    ⟨by unfold VolumeLoad.givenBy; decide, by unfold VolumeLoad.givenBy; decide, by decide, fun h => ?_⟩,
    by unfold VolumeLoad.givenBy; decide, noCell_is_full, e _ rfl, nofun⟩
  · cases h
    have o : (running.plant.cell 0).occ = .empty := by decide
    rw [o]
    exact ⟨by decide, nofun, nofun⟩
  · exact absurd (h 6 rfl) (by decide)

theorem witness_LoadVolumeIsRefusedInOrderOrApplied :
    let l : VolumeLoad := { load with home := .cell 2047, loc := .cell 0 }
    let x := withVol (vol 6 (.cell 1) none) (withVol { vol 5 .outside none with home := some 3 } running)
    (running.manages hdr ∧ VolumeLoad.givenBy { fields with home := 2047, locKind := 0 } l)
    ∧ (running.plant.homeGiven l (some 2047) ∧ running.plant.homeGiven { l with home := .absent } (some 0)
        ∧ running.plant.homeGiven { load with home := .choose } (some 1008) ∧ running.plant.homeGiven load (some 1008)
        ∧ running.plant.homeGiven { load with cls := .visitor } none)
    ∧ (x.manages hdr ∧ x.plant.entryLoads l ∧ x.plant.cellLoads l ∧ x.plant.homeGiven l (some 2047)
        ∧ x.plant.vol? 6 = some (vol 6 (.cell 1) none)
        ∧ (∀ c, (vol 6 (.cell 1) none).loc = .cell c → l.loc ≠ .cell c ∧ (some 2047 : Option CellNo) ≠ some c)
        ∧ x.plant.vol? 5 = some { vol 5 .outside none with home := some 3 } ∧ x.plant.vol? 7 = none) := by
  have h : ∀ (c : CellNo) (l : VolumeLoad) (s : State), s.plant.ltu.cells = [] → s.plant.homeFree l c := fun c l s e v hv => by
    simp [Plant.cell, e] at hv
  have f : running.plant.freeCell = some 1008 := by decide
  refine ⟨⟨manages_running, by unfold VolumeLoad.givenBy; decide⟩,
    ⟨.inr ⟨rfl, _, rfl, .inl ⟨rfl, by decide, h _ _ _ rfl⟩⟩, .inr ⟨rfl, _, rfl, .inr (.inl ⟨rfl, rfl, h _ _ _ rfl⟩)⟩,
      .inr ⟨rfl, _, rfl, .inr (.inr ⟨.inl rfl, f⟩)⟩, .inr ⟨rfl, _, rfl, .inr (.inr ⟨.inr ⟨rfl, nofun⟩, f⟩)⟩,
      .inl ⟨rfl, rfl, nofun, rfl⟩⟩,
    manages_of rfl rfl rfl, ⟨fun v hv => ?_, fun n => ?_⟩, fun c hc => ?_, .inr ⟨rfl, _, rfl, .inl ⟨rfl, by decide, h _ _ _ rfl⟩⟩,
    by decide, (fun c h => by cases h; decide), by decide, by decide⟩
  · have e : (withVol (vol 6 (.cell 1) none) (withVol { vol 5 .outside none with home := some 3 } running)).plant.vol? 5
        = some { vol 5 .outside none with home := some 3 } := by decide
    have : v = { vol 5 .outside none with home := some 3 } := Option.some.inj (hv.symm.trans e)
    subst this
    exact ⟨rfl, .inr (.inl rfl)⟩
  · decide
  · cases hc
    refine ⟨by decide, nofun, nofun⟩

theorem witness_VolumesAreDeletedAndFlagged :
    let s (l : Location) := withVol (vol 5 l none) running
    let e := withEnv ({ · with fence.working.invert := true }) (s .outside)
    (∀ l, (s l).manages hdr) ∧ inCell.manages hdr ∧ e.manages hdr ∧ serialOf [] = none ∧ serialOf five = some 5
    ∧ running.plant.vol? 5 = none ∧ inCell.plant.vol? 5 = some (vol 5 (.cell 0) (some 47))
    ∧ (e.plant.vol? 5 = some (vol 5 .outside none) ∧ e.env.fenced 5 = true)
    ∧ ((s (.cell 0)).plant.vol? 5 = some (vol 5 (.cell 0) none) ∧ (s (.cell 0)).env.fenced 5 = false
        ∧ Location.cell 0 ≠ .outside ∧ Location.cell 0 ≠ .unknown)
    ∧ ((s .unknown).plant.vol? 5 = some (vol 5 .unknown none) ∧ (s .unknown).env.fenced 5 = false)
    ∧ ((4#8).getLsbD 2 = true ∧ (7#8).getLsbD 2 = true)
    ∧ (∀ k, k < 3 → ¬((4#8).getLsbD k = true ∧ (3#8).getLsbD k = true)) :=
  ⟨fun _ => manages_of rfl rfl rfl, manages_of rfl rfl rfl, manages_of rfl rfl rfl, by decide⟩

theorem witness_TableReadsShowTheEntries :
    let s := withVol (vol 5 .outside none) running
    let p := onPlant (fun x => { x with ltu := { x.ltu with pool := [5] } }) s
    running.manages hdr ∧ s.manages hdr ∧ p.manages hdr ∧ serialOf [] = none ∧ [] ≠ List.replicate 6 0xFF#8
    ∧ serialOf five = some 5 ∧ running.plant.vol? 5 = none ∧ s.plant.vol? 5 = some (vol 5 .outside none)
    ∧ (∀ v ∈ running.plant.ltu.volumes, ¬ (fun _ => True) v.serial)
    ∧ (s.plant.ltu.volumes = [] ++ vol 5 .outside none :: [] ∧ serialOf [0x30, 0x30, 0x30, 0x30, 0x30, 0x34] = some 4
        ∧ (4 : Serial) < 5)
    ∧ (validCell (128#16).toNat = false ∧ validCell (2047#16).toNat = true)
    ∧ ((7#8).toNat = (7 : Fin 8).val ∧ (3#8).toNat = (3 : Fin 4).val ∧ 2 < (3#8).toNat ∧ 7 < (8#8).toNat ∧ 3 < (4#8).toNat)
    ∧ (p.plant.ltu.pool.length ≤ (1#16).toNat ∧ p.plant.ltu.pool[(0#16).toNat]? = some 5) :=
  ⟨manages_running, manages_of rfl rfl rfl, manages_of rfl rfl rfl, by decide, by decide, by decide, by decide, by decide,
    (fun v h => by cases h), by decide, by decide, by decide, by decide⟩

/-! ### Witnesses: orders -/

/-- A state in which no tag is live takes every order. -/
theorem orders_of {s : State} {g : Byte} (f : s.env.resetPin = false) (l : s.plant.mgu.lib = .running)
    (t : s.tagLive 0 g = false) : s.orders { path := 0, tag := g, sized := true } := ⟨f, .inl l, rfl, t⟩

theorem orders_running : running.orders hdr := orders_of rfl rfl (by decide)

def scratch9 : QOrder := { tag := 9, kind := .scratch, drive := 31, account := 0 }

/-- Path 0 with some orders of tag 9 queued. -/
def scratches (n : Nat) : State :=
  { running with oiu := { running.oiu with queues := vset running.oiu.queues 0 (List.replicate n scratch9) } }

/-- A task 47, bound with drive 31, at drive state `d`. -/
def atDrive (k : Task) (d : DriveState) : State :=
  withTask 47 k (withDrive 31 ({ · with state := d, bound := some 47 }) running)

theorem witness_ArrivalChecksRefuseInOrder :
    let live := atDrive (mountTask .moving) .reserved
    let full := scratches 16
    arrivalOf (.mount hdr five 31 1 255) = some (hdr, true, true)
    ∧ arrivalOf (.mount hdr five 32 1 255) = some (hdr, false, true) ∧ arrivalOf (.badOrder hdr 7) = some (hdr, false, false)
    ∧ State.reset.free ∧ State.reset.plant.mgu.lib = .starting ∧ running.free ∧ running.plant.mgu.lib = .running
    ∧ short.sized = false ∧ (live.free ∧ live.plant.mgu.lib = .running ∧ live.tagLive 0 9 = true)
    ∧ (full.free ∧ full.plant.mgu.lib = .running ∧ full.tagLive 0 7 = false ∧ 16 ≤ (full.oiu.queues.get 0).length) :=
  ⟨by decide, by decide, by decide, rfl, rfl, rfl, rfl, rfl, ⟨rfl, rfl, by decide⟩, ⟨rfl, rfl, by decide, by decide⟩⟩

theorem witness_MountOrdersJoinTheirQueue :
    let full := scratches 15
    full.orders hdr ∧ (full.oiu.queues.get 0).length < 16 ∧ serialOf five = some 5 ∧ driveOf 31 = some 31
    ∧ intentOf 1 = some .write := ⟨orders_of rfl rfl (by decide), by decide, by decide, by decide, by decide⟩

theorem witness_QueriesAreAnsweredAtOnce :
    let d (f : Drive → Drive) := withDrive 31 f running
    running.orders hdr ∧ inCell.orders hdr ∧ (∀ f, (d f).orders hdr) ∧ serialOf five = some 5 ∧ driveOf 31 = some 31
    ∧ running.plant.vol? 5 = none ∧ inCell.plant.vol? 5 = some (vol 5 (.cell 0) (some 47))
    ∧ ((d ({ · with present := false })).plant.drive 31).present = false
    ∧ (((d ({ · with mask := 14 })).plant.drive 31).present = true
        ∧ ((d ({ · with mask := 14 })).plant.drive 31).mask.getLsbD hdr.path.val = false)
    ∧ ((running.plant.drive 31).present = true ∧ (running.plant.drive 31).mask.getLsbD hdr.path.val = true) :=
  ⟨orders_running, orders_of rfl rfl (by decide), fun _ => orders_of rfl rfl (by rfl), by decide, by decide, by decide,
    by decide, by decide, by decide, by decide⟩

theorem witness_DismountAttachesToItsTask :
    let a := mountTask .mounted
    let b : Task := { a with requester := some (3, 8) }
    (running.orders hdr ∧ driveOf 31 = some 31 ∧ (running.plant.drive 31).state ≠ .mounted
      ∧ (running.plant.drive 31).state ≠ .unloading ∧ (running.plant.drive 31).state ≠ .unloaded)
    ∧ ((atDrive b .unloading).orders hdr ∧ ((atDrive b .unloading).plant.drive 31).present = true
        ∧ ((atDrive b .unloading).plant.drive 31).mask.getLsbD hdr.path.val = true
        ∧ ((atDrive b .unloading).plant.drive 31).bound = some 47 ∧ (atDrive b .unloading).plant.task? 47 = some b
        ∧ b.requester ≠ none)
    ∧ ((atDrive a .unloaded).orders hdr ∧ ((atDrive a .unloaded).plant.drive 31).state = .unloaded
        ∧ (atDrive a .unloaded).plant.task? 47 = some a ∧ a.requester = none)
    ∧ ((atDrive a .mounted).orders hdr ∧ ((atDrive a .mounted).plant.drive 31).state = .mounted
        ∧ ((atDrive a .mounted).plant.drive 31).present = true ∧ (atDrive a .mounted).plant.task? 47 = some a) :=
  ⟨⟨orders_running, by decide, by decide, by decide, by decide⟩,
    ⟨orders_of rfl rfl (by decide), by decide, by decide, by decide, by decide, by decide⟩,
    ⟨orders_of rfl rfl (by decide), by decide, by decide, rfl⟩,
    ⟨orders_of rfl rfl (by decide), by decide, by decide, by decide⟩⟩

/-- A mount that waits for cleaning, its volume in a cell and its drive reserved. -/
def waitingMount (k : Task) : State :=
  withTask 47 k (withDrive 31 ({ · with state := .reserved, bound := some 47, mountOpen := true }) inCell)

theorem only_47 {k m : Task} {u : TaskNo} {s : State} (f : ∀ t, s.plant.task? t = none)
    (h : (withTask 47 k s).plant.task? u = some m) : u = 47 ∧ m = k := by
  rw [task_of] at h
  split at h
  · exact ⟨‹_›, (Option.some.inj h).symm⟩
  · rw [f] at h; cases h

theorem witness_CancelFindsItsTarget :
    let w := mountTask .waiting
    let q := scratches 1
    let r : Task := { w with requester := some (0, 9), origin := .path 1 3 }
    let e : Task := { w with pending := some .fenced }
    let m : Task := { w with answered := true, mountedTick := some 0 }
    (q.orders hdr ∧ ∃ o ∈ q.oiu.queues.get 0, o.tag = 9)
    ∧ ((waitingMount r).orders hdr ∧ (∀ o ∈ (waitingMount r).oiu.queues.get 0, o.tag ≠ 9)
        ∧ ∃ t k, (waitingMount r).plant.task? t = some k ∧ k.requester = some (0, 9))
    ∧ ((waitingMount m).orders hdr
        ∧ (∀ t k, (waitingMount m).plant.task? t = some k → k.requester ≠ some (0, 9))
        ∧ (∀ t k, (waitingMount m).plant.task? t = some k → k.origin = .path 0 9 → k.answered = true)
        ∧ ∃ t k, (waitingMount m).plant.task? t = some k ∧ k.origin = .path 0 9 ∧ k.mountedTick ≠ none)
    ∧ (running.orders hdr ∧ ∀ t k, running.plant.task? t = some k → k.origin = .path 0 9 → k.mountedTick = none)
    ∧ ((waitingMount e).orders hdr ∧ (waitingMount e).plant.task? 47 = some e ∧ e.origin = .path 0 9 ∧ e.answered = false
        ∧ e.pending ≠ none
        ∧ ∀ u n, (waitingMount e).plant.task? u = some n → n.origin = .path 0 9 → u = 47) := by
  have f : ∀ (k : Task) u m, (waitingMount k).plant.task? u = some m → u = 47 ∧ m = k :=
    fun k u m h => only_47 (fun t => free_running t) h
  refine ⟨⟨orders_of rfl rfl (by decide), ⟨_, List.mem_singleton.mpr rfl, rfl⟩⟩,
    ⟨orders_of rfl rfl (by decide), (fun o h => by cases h), ⟨47, _, rfl, rfl⟩⟩,
    ⟨orders_of rfl rfl (by decide), (fun t k h => ?_), (fun t k h _ => ?_), ⟨47, _, rfl, rfl, by decide⟩⟩,
    ⟨orders_running, fun t k h => ?_⟩,
    ⟨orders_of rfl rfl (by decide), rfl, rfl, rfl, by decide, fun u n h _ => (f _ _ _ h).1⟩⟩
  · rw [(f _ _ _ h).2]; decide
  · rw [(f _ _ _ h).2]
  · rw [free_running] at h; cases h

/-- The second part: the CANCEL of a mount that waits, its volume in a cell and its drive reserved. -/
theorem witness_CancelFindsItsTarget_waiting :
    let w := mountTask .waiting
    let s := waitingMount w
    s.orders hdr ∧ (∀ o ∈ s.oiu.queues.get 0, o.tag ≠ 9) ∧ (∀ u m, s.plant.task? u = some m → m.requester ≠ some (0, 9))
    ∧ s.plant.task? 47 = some w ∧ w.origin = .path 0 9 ∧ w.answered = false ∧ w.pending = none
    ∧ (∀ u m, s.plant.task? u = some m → m.origin = .path 0 9 → u = 47)
    ∧ w.requester = none ∧ w.prompt = none ∧ w.cell = none ∧ w.handoff = none ∧ w.service = none ∧ w.serial = some 5
    ∧ s.plant.vol? 5 = some (vol 5 (.cell 0) (some 47)) ∧ (∃ c, (vol 5 (.cell 0) (some 47)).loc = .cell c)
    ∧ (∀ a l, (s.plant.acc a).leg = some l → l.owner ≠ .task 47)
    ∧ (∀ n, (s.plant.entry n).task ≠ some 47 ∧ (s.plant.service n).task ≠ some 47)
    ∧ (∀ n, (s.plant.handoff n).task ≠ some 47)
    ∧ (s.plant.drive 31).bound = some 47 ∧ (s.plant.drive 31).state = .reserved ∧ (s.plant.drive 31).offlinePending = false
    ∧ ∀ c, (s.plant.drive c).bound = some 47 → c = 31 := by
  have f : ∀ u m, (waitingMount (mountTask .waiting)).plant.task? u = some m → u = 47 ∧ m = mountTask .waiting :=
    fun u m h => only_47 (fun t => free_running t) h
  refine ⟨orders_of rfl rfl (by decide), (fun o h => by cases h), (fun u m h => ?_), rfl, rfl, rfl, rfl,
    (fun u m h _ => (f _ _ h).1), rfl, rfl, rfl, rfl, rfl, rfl, by decide, ⟨0, rfl⟩,
    (fun a l h => by cases a <;> cases h), by decide, by decide, by decide, by decide, by decide, by decide⟩
  rw [(f _ _ h).2]; decide

/-! ### Witnesses: admission and the other claimants -/

/-- A queued MOUNT of serial 5 on drive 31 with account 255. -/
def mount9 (i : Intent) : QOrder := { tag := 9, kind := .mount 5 i, drive := 31, account := 255 }

/-- Volume 5 in cell 0, unbound, RINGED or not, with the pool given. -/
def pooled (r : Ring) (l : List Serial) : State :=
  onPlant (fun x => { x with ltu := { x.ltu with pool := l } })
    (withOcc 0 (.occupied 5) (withVol { vol 5 (.cell 0) none with ring := r, scratch := true } running))

theorem witness_AdmissionChecksInOrder :
    let d (f : Drive → Drive) := (withDrive 31 f running).plant.drive 31
    let worn := withVol { vol 5 (.cell 0) none with worn := true } running
    let fen := withEnv ({ · with fence.working.invert := true }) worn
    (d ({ · with present := false })).present = false
    ∧ ((d ({ · with mask := 7 })).present = true ∧ (d ({ · with mask := 7 })).mask.getLsbD (3 : Path).val = false)
    ∧ ((d ({ · with state := .heldReel })).state = .heldReel ∧ (d ({ · with bound := some 0 })).bound ≠ none)
    ∧ ((running.plant.drive 31).present = true ∧ (running.plant.drive 31).mask.getLsbD 3 = true
        ∧ (running.plant.drive 31).state ≠ .offline ∧ (running.plant.drive 31).bound = none)
    ∧ (tableFull.plant.vol? 5 = none ∧ 4096 ≤ tableFull.plant.ltu.volumes.length)
    ∧ (running.plant.vol? 5 = none ∧ running.plant.ltu.volumes.length < 4096
        ∧ (withEnv ({ · with fence.working.invert := true }) running).env.fenced 5 = true ∧ running.env.fenced 5 = false)
    ∧ (inCell.plant.vol? 5 = some (vol 5 (.cell 0) (some 47)) ∧ (mount9 .write).kind = .mount 5 .write)
    ∧ (worn.plant.vol? 5 = some { vol 5 (.cell 0) none with worn := true } ∧ worn.env.fenced 5 = false ∧ fen.env.fenced 5 = true)
    ∧ ((running.plant.selectScratch running.env = none ∧ scratch9.kind = .scratch)
        ∧ (pooled .ringed [5]).plant.selectScratch running.env = some 5) :=
  ⟨by decide, by decide, by decide, by decide,
    ⟨List.find?_eq_none.mpr fun v h => by rw [List.eq_of_mem_replicate h]; decide, List.length_replicate.ge⟩,
    by decide, by decide, by decide, by decide⟩

/-- The second part: a pool whose first member is not in the table and whose second is RINGED, or RINGLESS. -/
theorem witness_AdmissionChecksInOrder_scratch :
    let good (x : Plant) (e : Env) (r : Ring) (q : Serial) : Prop :=
      ∃ v c, x.vol? q = some v ∧ v.loc = .cell c ∧ v.bound = none ∧ e.fenced v.serial = false ∧ v.worn = false ∧ v.ring = r
    let a := pooled .ringed [6, 5]
    let b := pooled .ringless [6, 5]
    (a.plant.ltu.pool = [6] ++ 5 :: [] ∧ good a.plant a.env .ringed 5 ∧ ∀ w ∈ [(6 : Serial)], ¬ good a.plant a.env .ringed w)
    ∧ (b.plant.ltu.pool = [6] ++ 5 :: [] ∧ (∀ w ∈ b.plant.ltu.pool, ¬ good b.plant b.env .ringed w)
        ∧ good b.plant b.env .ringless 5 ∧ ∀ w ∈ [(6 : Serial)], ¬ good b.plant b.env .ringless w) := by
  have n6 : ∀ r, (pooled r [6, 5]).plant.vol? 6 = none := by intro r; cases r <;> decide
  have n5 : (pooled .ringless [6, 5]).plant.vol? 5
      = some { vol 5 (.cell 0) none with ring := .ringless, scratch := true } := by decide
  refine ⟨⟨rfl, ⟨{ vol 5 (.cell 0) none with ring := .ringed, scratch := true }, 0, by decide, rfl, rfl, by decide, rfl, rfl⟩, ?_⟩, rfl, ?_,
    ⟨{ vol 5 (.cell 0) none with ring := .ringless, scratch := true }, 0, by decide, rfl, rfl, by decide, rfl, rfl⟩, ?_⟩
  · rintro w hw ⟨v, c, hv, -⟩
    rw [List.mem_singleton.mp hw, n6] at hv; cases hv
  · rintro w hw ⟨v, c, hv, -, -, -, -, hr⟩
    have hw : w = 6 ∨ w = 5 := by simpa [pooled, onPlant] using hw
    rcases hw with rfl | rfl
    · rw [n6] at hv; cases hv
    · rw [n5] at hv; cases hv; cases hr
  · rintro w hw ⟨v, c, hv, -⟩
    rw [List.mem_singleton.mp hw, n6] at hv; cases hv

/-- Path 3 with one order queued. -/
def waiting (o : QOrder) : State := { running with oiu := { running.oiu with queues := vset running.oiu.queues 3 [o] } }

theorem witness_AdmissionTakesTheNextOrder :
    (State.reset.free ∧ State.reset.plant.mgu.lib ≠ .running)
    ∧ (let s := onPlant (fun x => x.putDrive 31 { x.drive 31 with present := false }) (waiting (mount9 .write))
       s.free ∧ s.mayAdmit = true ∧ s.nextPath = some 3 ∧ s.oiu.queues.get 3 = mount9 .write :: [] ∧ s.plant.task? 47 = none
       ∧ s.plant.check s.env 3 (mount9 .write) = .error .noDrive)
    ∧ (let s := onPlant (fun x => x.putDrive 31 { x.drive 31 with state := .cleanDue }) (waiting (mount9 .write))
       s.free ∧ s.mayAdmit = true ∧ s.nextPath = some 3 ∧ s.oiu.queues.get 3 = mount9 .write :: [] ∧ s.plant.task? 47 = none
       ∧ s.plant.check s.env 3 (mount9 .write) = .ok 5
       ∧ (s.acu.accounts.get (mount9 .write).account.toFin).allowance = 0) :=
  ⟨⟨rfl, by decide⟩, ⟨rfl, by decide, by decide, by decide, by decide, rfl⟩,
    ⟨rfl, by decide, by decide, by decide, by decide, rfl, by decide⟩⟩

/-- Every task record taken. -/
def allBusy (s : State) : State :=
  onPlant (fun x => { x with tcu := { x.tcu with tasks := Vector.replicate 48 (some (mountTask .waiting)) } }) s

/-- A key at console 2 with a number, naming prompt `p`. -/
def key (n : Byte) (p : BitVec 16) : Keyed := { console := .two, number := n, prompt := p }

theorem witness_EnterAndEjectMakeTasks :
    let c := withOcc 0 (.occupied 5) (withVol (vol 5 (.cell 0) none) running)
    (running.keys ∧ 7 < (key 8 0).number.toNat ∧ (∀ t, (allBusy running).plant.task? t ≠ none)
      ∧ ((key 7 0).number.toNat = (7 : Fin 8).val ∧ (inEntry.plant.entry 7).state ≠ .empty)
      ∧ ((key 7 0).number.toNat = (7 : Fin 8).val ∧ (running.plant.entry 7).state = .empty ∧ running.plant.task? 47 = none))
    ∧ ((at_ .loading).free ∧ (at_ .loading).env.set.mgmtMask.getLsbD hdr.path.val = true ∧ (at_ .loading).plant.mgu.lib = .loading
        ∧ (at_ .starting).free ∧ (at_ .starting).env.set.mgmtMask.getLsbD hdr.path.val = true
        ∧ (at_ .starting).plant.mgu.lib = .starting
        ∧ (let p := withEnv (fun e => { e with set := { e.set with mgmtMask := 14 } }) running
           p.free ∧ p.env.set.mgmtMask.getLsbD hdr.path.val = false))
    ∧ (running.free ∧ running.env.set.mgmtMask.getLsbD hdr.path.val = true ∧ running.plant.mgu.lib = .running
        ∧ short.sized = false ∧ serialOf [] = none ∧ hdr.sized = true ∧ serialOf five = some 5)
    ∧ (running.plant.vol? 5 = none ∧ inCell.plant.vol? 5 = some (vol 5 (.cell 0) (some 47)))
    ∧ (inService.plant.vol? 5 = some (vol 5 (.service 7) none) ∧ ∀ c, (vol 5 (.service 7) none).loc ≠ .cell c)
    ∧ ((∀ t, (allBusy c).plant.task? t ≠ none) ∧ (allBusy c).plant.vol? 5 = some (vol 5 (.cell 0) none))
    ∧ (c.plant.vol? 5 = some (vol 5 (.cell 0) none) ∧ c.plant.task? 47 = none) :=
  ⟨⟨⟨rfl, .inl rfl⟩, by decide, by decide, by decide, by decide⟩, ⟨rfl, by decide, rfl, rfl, by decide, rfl, rfl, by decide⟩,
    ⟨rfl, by decide, rfl, rfl, by decide, rfl, by decide⟩, by decide, ⟨by decide, fun c => by simp [vol]⟩, by decide, by decide⟩

/-- A MISFILED volume in cell 0 with home 2047 and its pending mark. -/
def misfiled : Volume := { vol 5 (.cell 0) none with home := some 2047, misfiled := true, refilePending := true }

theorem witness_RecoveryAndRefileTasksAreMade :
    let r := onPlant (fun x => { x with tcu := { x.tcu with requests := [.handoff 3] } }) running
    let o := onPlant (·.setHandoff 3 (Slot.hold .unknown none)) r
    let m := withOcc 0 (.occupied 5) (withVol misfiled running)
    (running.free ∧ running.plant.tcu.requests = [] ∧ running.plant.refileDue = none)
    ∧ (r.free ∧ r.plant.tcu.requests = .handoff 3 :: [] ∧ r.plant.task? 47 = none ∧ r.plant.stands (.handoff 3) = false)
    ∧ (o.free ∧ o.plant.tcu.requests = .handoff 3 :: [] ∧ o.plant.task? 47 = none ∧ (o.plant.handoff 3).state = .occupied
        ∧ (o.plant.handoff 3).task = none)
    ∧ (m.free ∧ m.plant.tcu.requests = [] ∧ m.plant.refileDue = some misfiled ∧ m.plant.vol? 5 = some misfiled
        ∧ misfiled.home = some 2047 ∧ m.plant.ltu.volumes.Pairwise fun a b => a.serial < b.serial)
    ∧ (let w := onPlant (fun x => { x with tcu := { x.tcu with requests := [.handoff 3] } }) m
       w.free ∧ w.plant.refileDue = some misfiled ∧ w.plant.tcu.requests ≠ []) :=
  ⟨⟨rfl, rfl, by decide⟩, ⟨rfl, rfl, by decide, by decide⟩, ⟨rfl, rfl, by decide, by decide, by decide⟩,
    ⟨rfl, rfl, by decide, by decide, rfl, by decide⟩, rfl, by decide, by decide⟩

/-! ### Witnesses: drives -/

/-- A prompt of its kind and owner, its times running. -/
def prompt (k : PromptKind) (o : PromptOwner) : Prompt :=
  { number := 65535, kind := k, params := {}, owner := o, urgency := 3, opened := 0, order := 0, nextEsc := some 100,
    escEvery := 100, deadline := some 200, skip1 := false, skip2 := false }

/-- Drive 31 in a state, unbound. -/
def driveIn (d : DriveState) : State := withDrive 31 ({ · with state := d }) running

theorem witness_LoadDriveSetsOneDrive :
    running.manages hdr ∧ (31 < (32#8).toNat ∧ 15 < (16#8).toNat ∧ 1 < (2#8).toNat)
    ∧ ((31#8).toNat = (31 : DriveNo).val ∧ (15#8).toNat ≤ 15 ∧ (1#8).toNat ≤ 1)
    ∧ (((driveIn .heldReel).plant.drive 31).state ≠ .offline ∧ ((driveIn .heldReel).plant.drive 31).state ≠ .empty
        ∧ ((driveIn .heldReel).plant.drive 31).state ≠ .absent)
    ∧ (running.plant.drive 31).state = .empty ∧ ((driveIn .absent).plant.drive 31).state = .absent :=
  ⟨manages_running, by decide⟩

theorem witness_ReadyMountsAndThreadFailRetries :
    let k := mountTask .threading
    let v := vol 5 (.drive 31) (some 47)
    let s (r : Bool) := withVol v (withTask 47 k (withDrive 31
      ({ · with state := .threading, bound := some 47, rethreadDone := r }) running))
    (∀ r, (s r).reports ∧ ((s r).plant.drive 31).state = .threading ∧ ((s r).plant.drive 31).bound = some 47
      ∧ (s r).plant.task? 47 = some k ∧ (s r).plant.vol? 5 = some v)
    ∧ k.pending = none ∧ k.serial = some 5 ∧ k.state = .threading ∧ k.origin = .path 0 9 ∧ k.answered = false
    ∧ ((s false).plant.drive 31).rethreadDone = false
    ∧ (((s true).plant.drive 31).rethreadDone = true ∧ (s true).plant.pru.table.length < 31 ∧ (s true).plant.pru.backlog = []) :=
  ⟨fun r => ⟨⟨rfl, nofun⟩, by cases r <;> decide⟩, rfl, rfl, rfl, rfl, rfl, by decide, by decide⟩

theorem witness_UnloadedClosesOrRequestsRecovery :
    let k := mountTask .mounted
    let p : Task := { k with pending := some .cancelled }
    let s := atDrive k .mounted
    let u := atDrive p .unloading
    (s.reports ∧ (s.plant.drive 31).state = .mounted ∧ (s.plant.drive 31).bound = some 47 ∧ s.plant.task? 47 = some k
      ∧ k.serial = some 5 ∧ k.pending = none)
    ∧ (u.reports ∧ (u.plant.drive 31).state = .unloading ∧ (u.plant.drive 31).bound = some 47 ∧ u.plant.task? 47 = some p
        ∧ p.pending ≠ none)
    ∧ ((driveIn .heldReel).reports ∧ ((driveIn .heldReel).plant.drive 31).state = .heldReel
        ∧ ((driveIn .heldReel).plant.drive 31).unloadSeen = false) :=
  ⟨⟨⟨rfl, nofun⟩, by decide⟩, ⟨⟨rfl, nofun⟩, by decide⟩, ⟨rfl, nofun⟩, by decide⟩

theorem witness_DrivesGoOfflineOnlineAndFaulted :
    let f := withDrive 31 ({ · with state := .faulted, preFault := some .empty, offlinePending := true }) running
    let c := withDrive 31 ({ · with state := .cleanDue, bound := some 0 }) running
    let o := withDrive 31 ({ · with state := .offline, interval := 2, footage := 1 }) running
    (∀ d, (driveIn d).reports) ∧ (running.plant.drive 31).state = .empty
    ∧ ((driveIn .reserved).plant.drive 31).state = .reserved
    ∧ ((c.plant.drive 31).state = .cleanDue ∧ (c.plant.drive 31).bound ≠ none)
    ∧ ((o.plant.drive 31).state = .offline ∧ (o.plant.drive 31).footage < (o.plant.drive 31).interval)
    ∧ ((f.plant.drive 31).state = .faulted ∧ (f.plant.drive 31).preFault = some .empty ∧ (f.plant.drive 31).bound = none)
    ∧ ((driveIn .heldReel).plant.drive 31).state ≠ .faulted :=
  ⟨fun _ => ⟨rfl, nofun⟩, by decide⟩

theorem witness_DrivesGoOfflineOnlineAndFaulted_cleaning :
    let due (t : List Prompt) (b : List PromptRequest) : State :=
      onPlant (fun x => { x with pru := { x.pru with table := t, backlog := b } }) (driveIn .cleanDue)
    let p := prompt .clean (.drive 31)
    let b := due (List.replicate 32 { p with number := 1, kind := .watch })
      [{ number := 2, kind := .clean, params := {}, owner := .drive 31 }]
    let o := withDrive 31 ({ · with state := .offline, interval := 1, footage := 1 }) running
    let f := withDrive 31 ({ · with state := .faulted, preFault := some .mounted, bound := some 47 }) running
    (∀ t l, (due t l).reports ∧ ((due t l).plant.drive 31).state = .cleanDue ∧ ((due t l).plant.drive 31).bound = none)
    ∧ (due [] []).plant.pru.numberOf .clean (.drive 31) = none
    ∧ ((due [p] []).plant.pru.numberOf .clean (.drive 31) = some 65535 ∧ (due [p] []).plant.pru.backlog = [])
    ∧ (b.plant.pru.numberOf .clean (.drive 31) = some 2 ∧ 32 ≤ b.plant.pru.table.length
        ∧ ∀ q ∈ b.plant.pru.table, q.number ≠ 2)
    ∧ (o.reports ∧ (o.plant.drive 31).state = .offline ∧ (o.plant.drive 31).interval ≠ 0
        ∧ (o.plant.drive 31).interval ≤ (o.plant.drive 31).footage ∧ o.plant.pru.table.length < 32 ∧ o.plant.pru.later = none)
    ∧ (f.reports ∧ (f.plant.drive 31).state = .faulted ∧ (f.plant.drive 31).preFault = some .mounted
        ∧ (f.plant.drive 31).bound = some 47 ∧ DriveState.mounted ≠ .reserved) :=
  ⟨fun _ _ => ⟨⟨rfl, nofun⟩, rfl, rfl⟩, by decide, by decide, by decide, ⟨⟨rfl, nofun⟩, by decide⟩, ⟨rfl, nofun⟩, by decide⟩

/-! ### Witnesses: accessors -/

/-- Accessor B idle in a bay with a step in flight, and perhaps a leg. -/
def stepping (bay : Nat) (k : StepKind) (l : Option Leg) : State :=
  withAcc .B (fun c => { c with state := .stepping, bay := some bay, gripper := .empty, leg := l,
                                step := some { kind := k, tag := 255, deadline := 100 } }) running

theorem witness_ReportsNobodyWaitsForAreCounted :
    (running.free ∧ (∀ f, (running.plant.acc .B).step = some f → f.tag ≠ 0))
    ∧ (let s := stepping 80 (.travel 127) none
       s.free ∧ ∀ f, (s.plant.acc .B).step = some f → f.tag ≠ 254 ∨ reportFits (.arrived .B 254) f.kind = false)
    ∧ (let s := stepping 80 (.travel 127) none
       ∀ f, (s.plant.acc .B).step = some f → f.tag ≠ 255 ∨ reportFits (.placed .B 255) f.kind = false)
    ∧ ((∀ d, (driveIn d).reports) ∧ ((driveIn .unloaded).plant.drive 31).state = .unloaded
        ∧ ((driveIn .absent).plant.drive 31).state = .absent)
    ∧ (let k : Task := { mountTask .threading with pending := some .cancelled }
       ((atDrive k .threading).plant.drive 31).state = .threading ∧ ((atDrive k .threading).plant.drive 31).bound = some 47
       ∧ (atDrive k .threading).plant.task? 47 = some k ∧ k.pending ≠ none) := by
  refine ⟨⟨rfl, fun f h => by cases h⟩, ⟨rfl, fun f h => ?_⟩, (fun f h => ?_), ⟨fun _ => ⟨rfl, nofun⟩, by decide, by decide⟩, by decide⟩
  · cases h; decide
  · cases h; decide

theorem witness_StepsAreSentAndTravelsArrive :
    let s (b : Nat) (c : Option Acc) := onPlant (fun x => { x with mou := { x.mou with holder := some .B, claimant := c } })
      (stepping 79 (.travel b) none)
    (∀ b c, (s b c).free ∧ (s b c).plant.mou.holder = some .B ∧ ((s b c).plant.acc .B).leg = none ∧ (s b c).env.held = false
      ∧ ((s b c).plant.acc .B).step = some { kind := .travel b, tag := 255, deadline := 100 }
      ∧ (s b c).plant.mou.claimant = c)
    ∧ (79 < 80 ∧ 48 ≤ 79 ∧ 79 ≤ 79) :=
  ⟨fun _ _ => ⟨rfl, rfl, rfl, rfl, rfl, rfl⟩, by decide⟩

/-- A leg of task 47 from cell 2047 to drive 31. -/
def legOf (o : Owner) (dst : Location) (w : Work) : Leg :=
  { id := 0, owner := o, cls := .mount, src := .cell 2047, dst := some dst, onward := none, capA := false, capB := true,
    steps := 0, joined := 0, picked := false, work := w, bay := 0, pos := 0, last := 0 }

theorem witness_PicksTakeOrMissTheReel :
    let k := mountTask .moving
    let v := vol 5 (.cell 2047) (some 47)
    let l := legOf (.task 47) (.drive 31) .toDrive
    let s := withOcc 2047 (.occupied 5) (withVol v (withTask 47 k (stepping 127 (.pick 127 15) (some l))))
    s.free ∧ s.env.held = false ∧ (s.plant.acc .B).step = some { kind := .pick 127 15, tag := 255, deadline := 100 }
    ∧ (s.plant.acc .B).leg = some l ∧ (s.plant.acc .B).ending = false ∧ l.owner = .task 47 ∧ l.src = .cell 2047
    ∧ s.plant.task? 47 = some k ∧ k.serial = some 5 ∧ s.plant.vol? 5 = some v ∧ v.loc = .cell 2047
    ∧ (s.plant.cell 2047).occ = .occupied 5 ∧ k.kind = .mount ∧ k.state = .moving ∧ k.pending = none ∧ k.handoff = none
    ∧ k.service = none ∧ k.cell = none ∧ s.plant.pru.table.length < 32 ∧ s.plant.pru.backlog = [] :=
  ⟨rfl, by decide⟩

theorem witness_PlacesSetTheReelDownOrKeepIt :
    let k := mountTask .moving
    let v := vol 5 (.gripper .B) (some 47)
    let l := legOf (.task 47) (.drive 31) .toDrive
    let s := withVol v (withTask 47 k (withDrive 31 ({ · with state := .reserved, bound := some 47 })
      (withAcc .B ({ · with gripper := .known 5 }) (stepping 119 (.place 119 1) (some l)))))
    let g := legOf (.found 47 true) (.cell 2047) .carry
    let c := stepping 127 (.place 127 15) (some g)
    (s.free ∧ s.env.held = false ∧ (s.plant.acc .B).step = some { kind := .place 119 1, tag := 255, deadline := 100 }
      ∧ (s.plant.acc .B).leg = some l ∧ l.owner = .task 47 ∧ l.dst = some (.drive 31) ∧ l.work = .toDrive
      ∧ (s.plant.acc .B).gripper = .known 5 ∧ s.plant.task? 47 = some k ∧ k.pending = none ∧ k.serial = some 5
      ∧ s.plant.vol? 5 = some v ∧ v.loc = .gripper .B ∧ (s.plant.drive 31).state = .reserved)
    ∧ (c.free ∧ c.env.held = false ∧ (c.plant.acc .B).step = some { kind := .place 127 15, tag := 255, deadline := 100 }
        ∧ (c.plant.acc .B).leg = some g ∧ g.owner = .found 47 true ∧ g.dst = some (.cell 2047) ∧ c.plant.emptyService = some 0) :=
  ⟨⟨rfl, by decide⟩, ⟨rfl, by decide⟩⟩

theorem witness_FaultsStopTheAccessor :
    let s (t : Tick) := withEnv ({ · with tick := t }) (stepping 80 (.pick 80 0) none)
    (∀ t, (s t).free ∧ ((s t).plant.acc .B).step = some { kind := .pick 80 0, tag := 255, deadline := 100 }
      ∧ ((s t).plant.acc .B).leg = none ∧ (s t).plant.mgu.lib = .running)
    ∧ (∃ b p, StepKind.pick 80 0 = .pick b p) ∧ (∀ b, StepKind.pick 80 0 ≠ .travel b)
    ∧ reached (s 100).env.tick 100 = true ∧ reached (s 99).env.tick 100 = false
    ∧ ∃ b, StepKind.travel 127 = .travel b :=
  ⟨fun _ => ⟨rfl, rfl, rfl, rfl⟩, ⟨_, _, rfl⟩, nofun, by decide, by decide, ⟨_, rfl⟩⟩

theorem witness_RecoveredFindsTheAccessor :
    let s := stepping 0 (.recover true 80) none
    (s.free ∧ (s.plant.acc .B).step = some { kind := .recover true 80, tag := 255, deadline := 100 }
      ∧ (s.plant.acc .B).leg = none ∧ s.plant.mgu.lib = .running)
    ∧ ((47#8).toNat < 48 ∧ 127 < (128#8).toNat ∧ (48 ≤ (79#8).toNat ∧ (79#8).toNat ≤ 79))
    ∧ ((48 ≤ (80#8).toNat ∧ (80#8).toNat ≤ 127) ∧ ¬(true = true ∧ 48 ≤ (80#8).toNat ∧ (80#8).toNat ≤ 79))
    ∧ (∀ t k, s.plant.task? t = some k → k.faulted ≠ some .B) ∧ s.plant.volAt? (.gripper .B) = none :=
  ⟨⟨rfl, rfl, rfl, rfl⟩, by decide, by decide, (fun t k h => by cases (free_running t).symm.trans h), by decide⟩

/-! ### Witnesses: the end of an action, and the library tables -/

/-- Task 47 mounted at drive 31, volume 6 in cell 0, a reel of no task in service slot 7 and in handoff slot 3, and B on its
way. -/
def resting : State :=
  withTask 47 (mountTask .mounted) (withDrive 31 ({ · with state := .mounted, bound := some 47 })
    (onPlant (fun x => (x.setService 7 (Slot.hold .unknown none)).setHandoff 3 (Slot.hold .unknown none))
      (withOcc 0 (.occupied 6) (withVol (vol 6 (.cell 0) none) (stepping 80 (.travel 127) none)))))

theorem witness_SettlingServesTheWaitersAndLeavesTheRest :
    let x := resting.plant
    let v := vol 6 (.cell 0) none
    x.ltu.volumes.Pairwise (fun v w => v.serial < w.serial)
    ∧ (x.vol? 6 = some v ∧ (∀ n, v.loc ≠ .entry n) ∧ ∀ c, v.loc = .cell c → ∃ r, (x.cell c).occ = .occupied r)
    ∧ ((x.cell 0).occ ≠ .empty ∧ ∀ s t, (x.cell 0).occ ≠ .reserved s t)
    ∧ (x.service 7).state = .occupied ∧ (x.handoff 3).state = .occupied ∧ (x.entry 7).task = none
    ∧ x.task? 46 = none ∧ (x.task? 47 = some (mountTask .mounted) ∧ (mountTask .mounted).waiter = none)
    ∧ (∀ l ∈ x.mou.queue, l.owner ≠ .task 47) ∧ (∀ a l, (x.acc a).leg = some l → l.owner ≠ .task 47)
    ∧ (x.drive 30).bound = none ∧ (x.drive 31).bound = some 47
    ∧ (x.acc .B).step = some { kind := .travel 127, tag := 255, deadline := 100 }
    ∧ (∀ t k, x.task? t = some k → k.waiter = none) ∧ x.tcu.rackFull = false
    ∧ (∀ l ∈ x.mou.queue, ∀ t d, l.owner = .task t → l.dst ≠ some (.drive d))
    ∧ ∀ a l t d, (x.acc a).leg = some l → l.owner = .task t → l.dst ≠ some (.drive d) := by
  have o : (resting.plant.cell 0).occ = .occupied 6 := by decide
  have q : resting.plant.mou.queue = [] := by decide
  have g : ∀ a, (resting.plant.acc a).leg = none := fun a => by cases a <;> rfl
  have w : ∀ t k, resting.plant.task? t = some k → k.waiter = none := fun t k h => by
    rw [(only_47 (fun t => free_running t) h).2]; rfl
  simp only [q, g]
  refine ⟨by decide, ⟨by decide, by simp [vol], fun c h => ⟨6, ?_⟩⟩, ⟨?_, ?_⟩, by decide, by decide, by decide, by decide,
    by decide, by simp, by simp, by decide, by decide, by decide, w, by decide, by simp, by simp⟩
  · cases h; exact o
  · rw [o]; nofun
  · rw [o]; nofun

/-- Task 47 waits for a slot, its volume at a place; B is IDLE in bay 127 with its gripper EMPTY. -/
def slotWaiter (w : Waiter) (j : Work) (l : Location) : State :=
  withTask 47 { mountTask .waiting with waiter := some w, work := some j } (withVol (vol 5 l (some 47)) running)

/-- B IDLE in a bay with its gripper EMPTY, no step and no leg, and a queue of legs. -/
def idling (bay : Nat) (q : List Leg) : State :=
  onPlant (fun x => { x with mou := { x.mou with queue := q } })
    (withAcc .B ({ · with state := .idle, bay := some bay, gripper := .empty }) running)

theorem legsOk_of_none {x : Plant} (h : x.mou.legs = []) : x.legsOk := by
  refine ⟨?_, fun l m => ?_, fun _ _ _ _ l m => ?_⟩ <;> rw [h] at * <;> first | exact List.nodup_nil | cases m

theorem witness_SettlingServesTheWaitersAndLeavesTheRest_served :
    let s := slotWaiter .service .remove (.gripper .B)
    let h := slotWaiter .handoff .toDrive (.cell 0)
    let e : Env := { running.env with door := true }
    let x := (idling 127 []).plant
    (s.plant.legsOk ∧ h.plant.legsOk)
    ∧ (s.plant.task? 47 = some { mountTask .waiting with waiter := some .service, work := some .remove }
      ∧ s.plant.vol? 5 = some (vol 5 (.gripper .B) (some 47)) ∧ s.plant.emptyService = some 0
      ∧ capable .B (.gripper .B) (.service 0) = true ∧ (mountTask .waiting).service = none)
    ∧ (h.plant.task? 47 = some { mountTask .waiting with waiter := some .handoff, work := some .toDrive }
        ∧ h.plant.vol? 5 = some (vol 5 (.cell 0) (some 47)) ∧ h.plant.emptyHandoff = some 0
        ∧ (mountTask .waiting).drive = some 31 ∧ (mountTask .waiting).handoff = none
        ∧ capable .A (.cell 0) (.drive 31) = false ∧ capable .B (.cell 0) (.drive 31) = false)
    ∧ (∀ w j l u m, (slotWaiter w j l).plant.task? u = some m → u = 47 ∧ m.waiter = some w)
    ∧ (running.plant.act running.env .A = none ∧ running.plant.act running.env .B = none)
    ∧ (x.act e x.firstActor = none ∧ x.act e x.firstActor.other = some (x.updAcc .B ({ · with state := .held }))
        ∧ (x.updAcc .B ({ · with state := .held })).act e .B = none)
    ∧ ∀ y ∈ [running.plant, x, x.updAcc .B ({ · with state := .held })],
        (∀ t k, y.task? t = some k → k.waiter = none) ∧ y.tcu.rackFull = false ∧ y.judgeZoneWaits = y
        ∧ ∀ n, (y.service n).state = .empty := by
  refine ⟨⟨legsOk_of_none rfl, legsOk_of_none rfl⟩, by decide, by decide, fun w j l u m h => ?_, ⟨by rfl, by rfl⟩, ⟨by rfl, by rfl, by rfl⟩, ?_⟩
  · obtain ⟨rfl, rfl⟩ := only_47 (fun t => free_running t) h
    exact ⟨rfl, rfl⟩
  · intro y h
    simp only [List.mem_cons, List.not_mem_nil, or_false] at h
    rcases h with rfl | rfl | rfl <;>
      exact ⟨(fun t k h => by cases (free_running t).symm.trans h), by decide, rfl, by decide⟩

/-- The tables with one volume, MISFILED in cell 0 with home 2047, and in the pool. -/
def oneVolume : State :=
  onPlant (fun x => { x with ltu := { x.ltu with
    volumes := [{ misfiled with scratch := true }], pool := [5],
    cells := [{ num := 0, occ := .occupied 5, homeOf := none }, { num := 2047, occ := .empty, homeOf := some 5 }] } }) running

theorem oneVolume_cell (c : CellNo) :
    oneVolume.plant.cell c = if c = 0 then { num := 0, occ := .occupied 5, homeOf := none }
      else if c = 2047 then { num := 2047, occ := .empty, homeOf := some 5 } else { num := c, occ := .empty, homeOf := none } := by
  unfold Plant.cell
  by_cases h : c = 0
  · subst h; decide
  · by_cases k : c = 2047
    · subst k; decide
    · simp [oneVolume, onPlant, h, k, Ne.symm h, Ne.symm k]

theorem witness_LibraryTablesStayConsistent :
    (State.reset.plant.tablesOk ∧ step State.reset = .next State.reset)
    ∧ (oneVolume.plant.tablesOk ∧ step oneVolume = .next oneVolume) := by
  have e : oneVolume.plant.ltu.volumes = [{ misfiled with scratch := true }] := rfl
  refine ⟨⟨?_, rfl⟩, ?_, rfl⟩
  · simp [Plant.tablesOk, Plant.cell, State.reset, Plant.boot, Ltu.boot]
  · unfold Plant.tablesOk
    simp only [e, oneVolume_cell]
    refine ⟨by decide, by simp, by decide, fun c s => ?_, fun c s => ?_, by simp [misfiled, vol, Volume.visitor], by decide, fun s => ?_⟩
    · by_cases h : c = 0
      · simp [h, misfiled, vol, Volume.visitor]
      · by_cases k : c = 2047 <;> simp [h, k, misfiled, vol, Volume.visitor, Ne.symm h]
    · by_cases h : c = 0
      · simp [h, misfiled, vol, Volume.visitor]
      · by_cases k : c = 2047
        · simp [k, misfiled, vol, Volume.visitor]
        · simp [h, k, misfiled, vol, Volume.visitor, Ne.symm k]
    · simp [oneVolume, onPlant, misfiled, vol, Volume.visitor]
      exact eq_comm

/-- A DEMOUNT leg that has waited since tick 0. -/
def demountLeg : Leg := { legOf (.task 47) (.cell 2047) .store with cls := .demount, src := .drive 31 }

theorem witness_LegsAreTakenInOrderAndTheZoneIsShared :
    let s (k : Tick) := withEnv ({ · with tick := k }) (onPlant (fun x => { x with mou := { x.mou with
      tenureEnd := some 300, queue := [demountLeg] } }) running)
    (∀ k, (s k).free ∧ (s k).plant.mou.tenureEnd = some 300 ∧ (s k).plant.mou.queue = [] ++ demountLeg :: [])
    ∧ reached (s 300).env.tick 300 = true ∧ reached (s 299).env.tick 300 = false ∧ running.plant.mou.tenureEnd = none
    ∧ (∀ l ∈ (s 599).plant.mou.queue, l.cls = .demount → ((s 599).env.tick - l.joined).toNat < 600)
    ∧ (demountLeg.cls = .demount ∧ 600 ≤ ((s 600).env.tick - demountLeg.joined).toNat) :=
  ⟨fun _ => ⟨rfl, rfl, rfl⟩, by decide, by decide, rfl, by decide, by decide⟩

theorem witness_LegsAreTakenInOrderAndTheZoneIsShared_next :
    let l := legOf (.task 47) (.drive 31) .toDrive
    let n : Leg := { demountLeg with id := 1, capB := false }
    let z (bay : Nat) (q : List Leg) (h c : Option Acc) (e : Bool) := onPlant (fun x => { x with mou :=
      { x.mou with holder := h, claimant := c, expired := e } }) (idling bay q)
    let d := withEnv ({ · with door := true }) (idling 80 [])
    let r := withAcc .B ({ · with state := .recovering, recoverDue := true }) running
    (∀ b q, (idling b q).env.held = false ∧ ((idling b q).plant.acc .B).state = .idle
      ∧ ((idling b q).plant.acc .B).step = none ∧ (idling b q).plant.yielding .B = false
      ∧ ((idling b q).plant.acc .B).bay = some b)
    ∧ ((idling 127 [n, l]).plant.mou.queue = [n] ++ l :: [] ∧ (idling 127 [n, l]).plant.mayTake .B l = true
        ∧ (idling 127 [n, l]).plant.mayTake .B n = false ∧ n.id ≠ l.id)
    ∧ ((z 79 [] (some .B) none false).plant.mou.holder = some .B ∧ (z 79 [] none none false).plant.mou.holder ≠ some .B)
    ∧ ((z 80 [l] (some .B) (some .A) true).plant.yielding .B = true ∧ (z 79 [l] (some .B) (some .A) true).plant.yielding .B = true
        ∧ (z 79 [l] (some .B) (some .A) true).plant.mayTake .B l = true
        ∧ (z 79 [l] (some .B) (some .A) true).plant.mayTake .B { l with src := .cell 1008 } = false)
    ∧ (d.env.held = true ∧ (d.plant.acc .B).state = .idle ∧ (d.plant.acc .B).step = none ∧ d.plant.yielding .B = false)
    ∧ (r.env.held = false ∧ (r.plant.acc .B).step = none ∧ (r.plant.acc .B).recoverDue = true)
    ∧ ((running.plant.acc .B).state = .unknown ∧ running.plant.yielding .B = false) :=
  ⟨fun _ _ => ⟨rfl, rfl, rfl, rfl, rfl⟩, by decide, by decide, by decide, by decide, by decide, by decide⟩

/-- B holds the zone and stands in it, in its first and in its last bay. -/
theorem witness_LegsAreTakenInOrderAndTheZoneIsShared_zone :
    let z (b : Nat) := onPlant (fun x => { x with mou := { x.mou with holder := some .B } }) (idling b [])
    State.reset.plant.zoneOk ∧ (z 48).plant.zoneOk ∧ (z 79).plant.zoneOk ∧ ∀ b, ∃ t, exec .tick (z b) = .next t := by
  have h : ∀ b, (onPlant (fun x => { x with mou := { x.mou with holder := some .B } }) (idling b [])).plant.zoneOk := by
    intro b a
    cases a
    · exact ⟨nofun, nofun⟩
    · exact ⟨fun _ _ _ _ => rfl, nofun⟩
  refine ⟨fun a => ?_, h 48, h 79, fun _ => ⟨_, rfl⟩⟩
  cases a <;> exact ⟨nofun, nofun⟩

/-! ### Witnesses: management -/

theorem witness_ManagementCommandsAreAdmittedInOrder :
    let n := withEnv (fun e => { e with set := { e.set with mgmtMask := 14 } }) running
    (managementOf (.readClock hdr) = some hdr ∧ managementOf (.setTenure short 0) = some short)
    ∧ (n.free ∧ n.env.set.mgmtMask.getLsbD hdr.path.val = false)
    ∧ (State.reset.free ∧ State.reset.env.set.mgmtMask.getLsbD hdr.path.val = true ∧ State.reset.plant.mgu.lib = .starting)
    ∧ (running.free ∧ running.plant.mgu.lib ≠ .starting ∧ short.sized = false) ∧ (0#8 = 0 ∧ 0x3A < (0x3B#8).toNat) :=
  ⟨by decide, ⟨rfl, by decide⟩, ⟨rfl, by decide, rfl⟩, ⟨rfl, by decide, rfl⟩, by decide⟩

/-- One open prompt. -/
def prompting (p : Prompt) : State := onPlant (fun x => { x with pru := { x.pru with table := [p] } }) running

theorem witness_UnitReadsShowTheirEntries :
    let r : PromptRequest := { number := 1, kind := .retire, params := {}, owner := .drive 31 }
    let p := prompt .retire (.drive 31)
    let b := onPlant (fun x => { x with pru := { x.pru with backlog := [r] } }) running
    let l := onPlant (fun x => { x with mou := { x.mou with queue := [demountLeg], tenureEnd := some 300 } }) running
    (running.manages hdr ∧ (prompting p).manages hdr ∧ b.manages hdr ∧ l.manages hdr)
    ∧ ((47#8).toNat = (47 : TaskNo).val ∧ running.plant.task? 47 = none
        ∧ (withTask 47 (mountTask .moving) running).plant.task? 47 = some (mountTask .moving) ∧ 47 < (48#8).toNat)
    ∧ (1 < (2#8).toNat ∧ running.plant.mou.tenureEnd = none ∧ l.plant.mou.tenureEnd = some 300
        ∧ reached l.env.tick 300 = false)
    ∧ (l.plant.mou.queue[(0#8).toNat]? = some demountLeg ∧ l.plant.mou.queue.length ≤ (1#8).toNat)
    ∧ ((31#8).toNat = (31 : DriveNo).val ∧ 31 < (32#8).toNat)
    ∧ ((ranked (prompting p).plant.pru.table)[(0#8).toNat]? = some p ∧ (ranked (prompting p).plant.pru.table)[(1#8).toNat]? = none
        ∧ b.plant.pru.backlog[(0#8).toNat]? = some r ∧ b.plant.pru.backlog.length ≤ (1#8).toNat)
    ∧ (2 < (3#8).toNat ∧ (14#8).toNat = (14 : Fin 15).val ∧ 14 < (15#8).toNat ∧ (13#8).toNat = (13 : Fin 14).val ∧ 13 < (14#8).toNat) :=
  ⟨⟨manages_running, manages_of rfl rfl rfl, manages_of rfl rfl rfl, manages_of rfl rfl rfl⟩, by decide, by decide, by decide,
    by decide, by decide, by decide⟩

def usage (n : Nat) : Usage :=
  { seq := n, account := 0, volume := 5, drive := 31, path := 0, intent := .read, minute := 0, occupancy := 0, footage := 0,
    blocksRead := 0, blocksWritten := 0, factor := 16, charge := 0, tags := 0 }

/-- A buffer that holds records 65,535 and on. -/
def holding (l : List Usage) : State := { running with acu := { running.acu with buffer := l, quietEnd := some 300 } }

theorem witness_SettingAndBufferReadsShowTheirEntries :
    let f := fenced .unlocked (some (persist30 .unlocked))
    let a := onPlant (fun x => { x with adu := { x.adu with timer := some 300 } }) running
    (running.manages hdr ∧ f.manages hdr ∧ (holding [usage 0]).manages hdr ∧ a.manages hdr)
    ∧ (running.env.fence.persist = none ∧ f.env.fence.persist = some (persist30 .unlocked)
        ∧ reached f.env.tick (persist30 .unlocked).done = false)
    ∧ ((7#8).toNat = (7 : Fin 8).val ∧ 7 < (8#8).toNat ∧ (255#8).toNat = (255 : Fin 256).val)
    ∧ (running.acu.quietEnd = none ∧ (holding [usage 0]).acu.quietEnd = some 300 ∧ reached (holding [usage 0]).env.tick 300 = false)
    ∧ ((holding [usage 0]).acu.buffer[(0#8).toNat]? = some (usage 0) ∧ (holding [usage 0]).acu.buffer.length ≤ (1#8).toNat)
    ∧ ((63#8).toNat = (63 : Fin 64).val ∧ 63 < (64#8).toNat ∧ 2 < (3#8).toNat)
    ∧ (running.plant.adu.timer = none ∧ a.plant.adu.timer = some 300 ∧ reached a.env.tick 300 = false) :=
  ⟨⟨manages_running, manages_of rfl rfl rfl, manages_of rfl rfl rfl, manages_of rfl rfl rfl⟩, by decide, by decide, by decide,
    by decide, by decide, by decide⟩

theorem witness_FlagsAreSetAndClearedByGeneration :
    let g := onPlant (fun x => { x with mgu := { x.mgu with gen := 4294967295, flags := vset x.mgu.flags 13 { isSet := true, gen := 5 } } }) running
    (g.plant.mgu.gen = 4294967295)
    ∧ (running.env.set.noticeMask.getLsbD EventFlag.imageBad.index.val = true ∧ running.plant.mgu.lib ≠ .starting)
    ∧ ((withEnv (fun e => { e with set := { e.set with noticeMask := 0 } }) running).env.set.noticeMask.getLsbD 0 = false
        ∧ State.reset.plant.mgu.lib = .starting)
    ∧ (running.manages hdr ∧ (∃ p ∈ [((14#8), (0#32))], 13 < p.1.toNat) ∧ ¬([((13#8), (0#32)), (13#8, 1#32)].map fun p => p.1).Nodup)
    ∧ (g.manages hdr ∧ (∀ p ∈ [((13#8), (5#32)), (0#8, 0#32)], p.1.toNat ≤ 13)
        ∧ ([((13#8), (5#32)), (0#8, 0#32)].map fun p => p.1).Nodup
        ∧ (g.plant.mgu.flags.get 13).isSet = true ∧ (5#32).toNat = (g.plant.mgu.flags.get 13).gen)
    ∧ (running.free ∧ running.env.set.mgmtMask.getLsbD hdr.path.val = true ∧ short.sized = false) :=
  ⟨rfl, by decide, by decide, ⟨manages_running, by decide, by decide⟩,
    ⟨manages_of rfl rfl rfl, by simp, by simp, by decide, by decide⟩, ⟨rfl, by decide⟩⟩

theorem test_generation_skips_zero : nextGen 4294967295 = 1 ∧ nextGen 0 = 1 := by decide

theorem witness_LinkErrorsAreCountedAndCleared :
    let g := onPlant (fun x => { x with mgu := { x.mgu with flags := vset x.mgu.flags 12 { isSet := true, gen := 1 } } })
      (withEnv ({ · with linkC := 65535 }) running)
    (running.free ∧ judgeFrame .M [0xA6, 0x00] = .malformed)
    ∧ ((g.plant.mgu.flags.get EventFlag.linkError.index).isSet = true
        ∧ (running.plant.mgu.flags.get EventFlag.linkError.index).isSet = false)
    ∧ (running.manages hdr ∧ (2#8).toNat ≤ 2 ∧ 2 < (3#8).toNat) ∧ ∃ t, exec (.restart hdr) running = .next t :=
  ⟨⟨rfl, by decide⟩, by decide, ⟨manages_running, by decide⟩, ⟨_, rfl⟩⟩

theorem witness_LibraryStartAndRestart :
    let q := scratches 1
    (running.manages hdr ∧ running.plant.mgu.lib = .running)
    ∧ ((at_ .loading).manages hdr ∧ (at_ .loading).plant.mgu.lib = .loading ∧ (at_ .loading).plant.mou.holder = none
        ∧ (at_ .loading).env.held = false)
    ∧ ((withEnv ({ · with door := true }) (at_ .loading)).manages hdr ∧ (withEnv ({ · with door := true }) (at_ .loading)).env.held = true)
    ∧ (q.manages hdr ∧ q.plant.mgu.lib = .running ∧ ∃ o, o ∈ q.oiu.queues.get 0) :=
  ⟨⟨manages_running, rfl⟩, ⟨manages_loading, rfl, rfl, rfl⟩, ⟨⟨rfl, by decide, by decide, rfl⟩, rfl⟩,
    ⟨manages_of rfl rfl rfl, rfl, ⟨_, List.mem_singleton.mpr rfl⟩⟩⟩

/-! ### Witnesses: accounting -/

theorem witness_AccountsDrainTimerAndTake :
    let l := List.replicate 8 (usage 0)
    (running.manages hdr ∧ (holding l).manages hdr)
    ∧ (7 < (8#8).toNat ∧ (7#8).toNat = (7 : Fin 8).val ∧ (255 : Fin 256).val = (255#8).toNat ∧ 1 < (2#8).toNat ∧ (1#8).toNat ≤ 1)
    ∧ ((9#8 ≠ 8 ∧ 9#8 ≠ 16 ∧ 9#8 ≠ 32 ∧ 9#8 ≠ 64) ∧ (9#16).toNat < 10 ∧ 6000 < (6001#16).toNat
        ∧ 10 ≤ (6000#16).toNat)
    ∧ ((8#8).toNat < (holding l).env.set.trigger ∧ (8#8).toNat ≤ (holding l).acu.buffer.length ∧ (holding l).acu.buffer ≠ [])
    ∧ (running.env.set.trigger ≤ (32#8).toNat)
    ∧ (running.free ∧ running.acu.quietEnd = none)
    ∧ (let s (k : Tick) (l : List Usage) := withEnv ({ · with tick := k }) (holding l)
       (∀ k l, (s k l).free ∧ (s k l).acu.quietEnd = some 300 ∧ (s k l).acu.buffer = l)
       ∧ reached (s 299 []).env.tick 300 = false ∧ reached (s 300 []).env.tick 300 = true ∧ [usage 0] ≠ []) :=
  ⟨⟨manages_running, manages_of rfl rfl rfl⟩, by decide, ⟨by decide, by decide, by simp, by simp⟩, by decide, by decide,
    ⟨rfl, rfl⟩, fun _ _ => ⟨rfl, rfl, rfl⟩, by decide, by decide, by decide⟩

theorem witness_AccountsDrainTimerAndTake_take :
    let s := holding [usage 65535, usage 0]
    s.manages hdr ∧ (0#8 = 0 ∧ 8 < (9#8).toNat ∧ 1 < (2#8).toNat) ∧ (1 ≤ (8#8).toNat ∧ (8#8).toNat ≤ 8 ∧ (1#8).toNat ≤ 1)
    ∧ (s.acu.buffer = usage 65535 :: [usage 0] ∧ (usage 65535).seq ≠ (0#16).toNat ∧ (usage 65535).seq = (65535#16).toNat)
    ∧ ((1#8).toNat < s.acu.buffer.length ∧ s.acu.buffer.length ≤ (2#8).toNat)
    ∧ (running.free ∧ running.env.set.mgmtMask.getLsbD hdr.path.val = true ∧ running.plant.mgu.lib ≠ .starting ∧ short.sized = false) :=
  ⟨manages_of rfl rfl rfl, by decide, by decide, ⟨rfl, by decide, by simp [usage]⟩, by decide, rfl, by decide, by decide, rfl⟩

/-- Two periods, from minute 360 at 24 and from 1,200 at 8. -/
def twoShifts : List Period := [{ start := 360, factor := 24 }, { start := 1200, factor := 8 }]

theorem witness_CloseChargesTheAccount :
    let k : Task := { mountTask .mounted with mountedTick := some 0, mountedMinute := some 0 }
    let s := withDrive 31 ({ · with mountOpen := true }) (atDrive k .mounted)
    (shiftsOk twoShifts ∧ shiftsOk []) ∧ ({ start := 1200, factor := 8 } ∈ twoShifts
        ∧ (∀ q ∈ twoShifts, q.start ≤ 1439 → q.start ≤ 1200) ∧ (∀ q ∈ twoShifts, 359 < q.start)
        ∧ ∀ q ∈ twoShifts, q.start ≤ 1200)
    ∧ (s.reports ∧ (s.plant.drive 31).state = .mounted ∧ (s.plant.drive 31).bound = some 47
        ∧ (s.plant.drive 31).mountOpen = true ∧ s.plant.task? 47 = some k
        ∧ k.pending = none ∧ k.serial = some 5 ∧ k.mountedTick = some 0 ∧ k.mountedMinute = some 0)
    ∧ (∃ base sh : Nat, 16777215 < (base * sh + 8) / 16) ∧ (∃ total charge : Nat, 4294967295 < total + charge) :=
  ⟨⟨⟨by decide, by decide, by decide⟩, ⟨by decide, .nil, fun p h => by cases h⟩⟩, by decide, ⟨⟨rfl, nofun⟩, by decide⟩,
    ⟨16777216, 16, by decide⟩, ⟨4294967295, 1, by decide⟩⟩

theorem test_shift_factor_wraps : shiftFactor twoShifts 359 = 8 ∧ shiftFactor twoShifts 360 = 24 ∧ shiftFactor [] 0 = 16 := by
  decide

/-- Stage 5 rounds an exact half up: (1 × 8 + 8) div 16 = 1; stage 1 counts a part granule whole. -/
theorem test_charge_rounds :
    exactCharge { fee := 1, granule := 600, price := 0, wear := 0 } 8 0 0 = 1
    ∧ exactCharge { fee := 0, granule := 600, price := 5, wear := 0 } 16 601 0 = 10
    ∧ exactCharge { fee := 0, granule := 600, price := 0, wear := 3 } 16 0 99 = 2 := by decide

theorem witness_SettingsQueuesAndRecordsStayInRange :
    (State.reset.env.ok ∧ State.reset.oiu.ok ∧ State.reset.acu.ok ∧ State.reset.bounded ∧ State.reset.plant.requestsOk
      ∧ (State.reset.plant.legsOk ∧ State.reset.plant.promptsOk) ∧ ∃ t, exec .tick State.reset = .next t)
    ∧ (∀ p, ((scratches 16).oiu.queues.get p).length ≤ 16)
    ∧ (withDrive 31 ({ · with mountOpen := true }) (holding (List.replicate 127 (usage 0)))).bounded := by
  refine ⟨⟨reset_env_ok, by unfold Oiu.ok; decide, ⟨by decide, trivial, (fun u h => by cases h), fun n => ?_⟩, ?_,
    ⟨by decide, by decide, rfl, by decide⟩, ⟨legsOk_of_none rfl, by decide, by decide, by decide⟩, ⟨_, rfl⟩⟩, by decide, ?_⟩
  · have : State.reset.acu.accounts.get n = Account.boot := by
      simp [State.reset, Acu.boot, Vector.get_eq_getElem]
    rw [this]; decide
  · show (_ : Nat) ≤ 128
    decide
  · have h : ((List.finRange 32).filter fun d => ((withDrive 31 ({ · with mountOpen := true })
        (holding (List.replicate 127 (usage 0)))).plant.drive d).mountOpen).length = 1 := by decide
    have b : (withDrive 31 ({ · with mountOpen := true }) (holding (List.replicate 127 (usage 0)))).acu.buffer.length = 127 :=
      List.length_replicate
    unfold State.bounded
    omega

/-! ### Witnesses: prompts, keys and the door -/

theorem witness_KeysAnswerPromptsOrBeep :
    let p (k : PromptKind) (o : PromptOwner) := prompt k o
    let c := withDrive 31 ({ · with state := .cleanDue }) (prompting (prompt .clean (.drive 31)))
    (State.reset.free ∧ State.reset.plant.mgu.lib = .starting)
    ∧ (running.free ∧ ∀ q ∈ running.plant.pru.table, q.number ≠ (key 0 0).prompt.toNat)
    ∧ (99 < (key 100 0).number.toNat ∧ (key 254 0).number.toNat < 255 ∧ running.keys)
    ∧ (∀ k o, (prompting (p k o)).free ∧ (prompting (p k o)).plant.pru.find? (key 8 65535).prompt.toNat = some (p k o)
        ∧ (p k o).kind = k ∧ (p k o).owner = o)
    ∧ (7 < (key 8 65535).number.toNat ∧ ((key 7 0).number.toNat = (7 : Fin 8).val ∧ (inEntry.plant.entry 7).state ≠ .empty))
    ∧ ((key 0 0).console = .two ∧ running.env.sw2 ≠ .maintain)
    ∧ (c.keys ∧ c.plant.pru.find? (key 99 65535).prompt.toNat = some (p .clean (.drive 31)) ∧ c.plant.pru.backlog = []
        ∧ (key 99 65535).number.toNat ≤ 99 ∧ (key 255 65535).number.toNat = 255 ∧ (c.plant.drive 31).state = .cleanDue
        ∧ (c.plant.drive 31).bound = none ∧ (c.plant.drive 31).offlinePending = false) :=
  ⟨⟨rfl, rfl⟩, ⟨rfl, fun q h => by cases h⟩, ⟨by decide, by decide, rfl, .inl rfl⟩, fun _ _ => ⟨rfl, rfl, rfl, rfl⟩, by decide,
    by decide, ⟨⟨rfl, .inl rfl⟩, rfl, rfl, by decide, by decide, by decide, by decide, by decide⟩⟩

theorem witness_SkipHoldSwitchAndDoor :
    let p := prompt .watch (.drive 31)
    let d := withEnv ({ · with door := true }) running
    ((prompting p).keys ∧ (prompting p).plant.pru.find? (key 0 65535).prompt.toNat = some p)
    ∧ running.keys ∧ (State.reset.free ∧ (key 0 0).console = .two)
    ∧ (running.free ∧ running.env.door = false) ∧ (d.free ∧ d.env.door = true ∧ d.plant.adu.list1.mode ≠ .door
        ∧ d.plant.adu.list2.mode ≠ .door ∧ d.plant.mgu.lib ≠ .starting)
    ∧ (let w (l : LibState) := onPlant (fun x => { x with adu := { x.adu with
         list1 := { x.adu.list1 with mode := .door }, list2 := { x.adu.list2 with mode := .door, state := .paused } } })
           (withEnv ({ · with door := true }) (at_ l))
       ∀ l, (w l).free ∧ (w l).env.door = true ∧ (w l).plant.mgu.lib = l ∧ (w l).plant.adu.list1.mode = .door
         ∧ (w l).plant.adu.list2.mode = .door) :=
  ⟨⟨⟨rfl, .inl rfl⟩, rfl⟩, ⟨rfl, .inl rfl⟩, ⟨rfl, rfl⟩, ⟨rfl, rfl⟩, ⟨rfl, rfl, by decide, by decide, by decide⟩,
    fun _ => ⟨rfl, rfl, rfl, rfl, rfl⟩⟩

theorem witness_PromptsEscalateAndExpire :
    let p := prompt .watch (.drive 31)
    let q : Prompt := { p with nextEsc := none, deadline := none }
    let s (k : Tick) := withEnv ({ · with tick := k }) (prompting p)
    (∀ k, (s k).free ∧ (s k).plant.pru.find? (65535#16).toNat = some p ∧ (s k).plant.pru.backlog = [])
    ∧ (p.nextEsc = some 100 ∧ reached (s 100).env.tick 100 = true ∧ reached (s 99).env.tick 100 = false)
    ∧ (p.deadline = some 200 ∧ reached (s 200).env.tick 200 = true ∧ reached (s 199).env.tick 200 = false ∧ p.kind = .watch)
    ∧ ((prompting q).plant.pru.find? (65535#16).toNat = some q ∧ q.nextEsc = none ∧ q.deadline = none) :=
  ⟨fun _ => ⟨rfl, rfl, rfl⟩, by decide, by decide, ⟨rfl, rfl, rfl⟩⟩

/-! ### Witnesses: audit and the links -/

/-- List 1 in a mode and state, the sweep table's first entry a range of bay 127. -/
def sweeping (m : AuditMode) (c : ListState) : State :=
  withEnv (fun e => { e with set := { e.set with sweep := vset e.set.sweep 0 (.range 127 14 15 false), l2 := 64 } })
    (onPlant (fun x => { x with adu := { x.adu with
      list1 := { x.adu.list1 with mode := m, state := c }, timer := some 300 } }) running)

theorem witness_AuditModesSweepsAndInterval :
    (∀ m c, (sweeping m c).manages hdr ∧ (sweeping m c).plant.adu.list1.mode = m ∧ (sweeping m c).plant.adu.list1.state = c)
    ∧ (0#8 = 0 ∧ 2 < (3#8).toNat ∧ 4 < (5#8).toNat ∧ auditModeOf 4 = some .intervalOnce)
    ∧ (AuditMode.command ≠ .intervalOnce ∧ ListState.idle ≠ .paused ∧ ListState.running ≠ .idle)
    ∧ (1#8 = 1 ∧ 2#8 = 2 ∧ (sweeping .off .idle).plant.list .two = (sweeping .off .paused).plant.adu.list2)
    ∧ (running.free ∧ running.plant.adu.timer = none)
    ∧ (let s (k : Tick) (m : AuditMode) := withEnv ({ · with tick := k }) (sweeping m .running)
       (∀ k m, (s k m).free ∧ (s k m).plant.adu.timer = some 300 ∧ (s k m).plant.mgu.lib ≠ .starting)
       ∧ reached (s 299 .interval).env.tick 300 = false ∧ reached (s 300 .interval).env.tick 300 = true
       ∧ (¬ (s 300 .command).plant.adu.list1.timed ∧ ¬ (s 300 .command).plant.adu.list2.timed)
       ∧ ((s 300 .interval).plant.adu.list1.timed ∧ (s 300 .interval).plant.adu.list1.state = .running)) :=
  ⟨fun _ _ => ⟨manages_of rfl rfl rfl, rfl, rfl⟩, by decide, by decide, ⟨rfl, rfl, rfl⟩,
    ⟨rfl, rfl⟩, (fun _ _ => ⟨rfl, rfl, nofun⟩), by decide, by decide,
    by unfold ListCtx.timed; decide, by unfold ListCtx.timed; decide⟩

theorem witness_AuditReadingsCorrectTheCell :
    let v := vol 5 (.cell 2046) none
    let l := { auditLeg .one 127 14 15 with id := 0 }
    let s := withOcc 2046 (.occupied 5) (withVol v (stepping 127 (.read 127 14 14) (some l)))
    s.free ∧ (s.plant.acc .B).step = some { kind := .read 127 14 14, tag := 255, deadline := 100 }
    ∧ (s.plant.acc .B).leg = some l ∧ l.owner = .audit .one ∧ 14 < l.last ∧ l.last ≤ 15 ∧ (s.plant.acc .B).ending = false
    ∧ (s.plant.acc Acc.B.other).leg = none ∧ s.plant.mou.queue = [] ∧ s.plant.vol? v.serial = some v
    ∧ v.loc = .cell (127 * 16 + 14) ∧ (s.plant.cell (127 * 16 + 14)).occ = .occupied v.serial
    ∧ (∀ w ∈ s.plant.ltu.volumes, w.loc = .cell (127 * 16 + 14) → w.serial = v.serial)
    ∧ s.plant.pru.table = [] ∧ s.plant.pru.backlog = [] :=
  ⟨rfl, by decide⟩

theorem witness_FramesAreReceivedAsSent :
    let f : Frame := { cls := 0x92, address := 63, payload := [0x01] }
    (f.payload.length ≤ 128 ∧ classIn .M f.cls = some .driveReport ∧ addressOk .driveReport f.address = true
      ∧ payloadOk .driveReport f.address f.payload = true) ∧ 65535 < 256 ^ 2 := by decide

/-- Frames that are not well formed: of no class of the link, from no station of it, with no payload of the kind's form. -/
theorem witness_FramesAreReceivedAsSent_malformed :
    classIn .M 0x11 = none ∧ (classIn .M 0x92 = some .driveReport ∧ addressOk .driveReport 64 = false
      ∧ payloadOk .driveReport 63 [0x07] = false) ∧ (List.replicate 129 (0#8)).length = 129
    ∧ ([0, 0] : List Byte) ≠ beBytes 2 (crc16 (Frame.body { cls := 0x92, address := 63, payload := [0x01] })).toNat := by
  exact ⟨by decide, by decide, List.length_replicate, by decide +kernel⟩

/-- The check word of the digits 1 to 9, a common check value of this polynomial and start. -/
theorem test_check_word : crc16 [0x31, 0x32, 0x33, 0x34, 0x35, 0x36, 0x37, 0x38, 0x39] = 0x29B1#16 := by decide +kernel

/-- No row of the opcode table gives bits, so no word spells a command. -/
theorem test_no_word_spells_a_command : decodeTableWord 16 0x1234 = none := by decide

/-! ### Witnesses: the clauses of the longer statements, part by part -/

/-- With one task, and it no waiter, nobody waits for a slot. -/
theorem nobody_waits {k : Task} {s : State} (f : ∀ t, s.plant.task? t = none) (w : k.waiter = none) :
    ∀ u j, (withTask 47 k s).plant.task? u = some j → j.waiter = none := fun _ _ h => by rw [(only_47 f h).2]; exact w

/-- The one task of a state of one task, whatever else is said of it. -/
theorem one_task {k : Task} {s : State} (f : ∀ t, s.plant.task? t = none) {P : Task → Prop} (p : P k) :
    ∀ u j, (withTask 47 k s).plant.task? u = some j → u = 47 ∧ P j := fun _ _ h => by
  obtain ⟨rfl, rfl⟩ := only_47 f h
  exact ⟨rfl, p⟩

/-- A mount with a step of its leg in flight, and one at a THREADING drive. -/
theorem witness_CancelFindsItsTarget_underWay :
    let k := mountTask .moving
    let l := legOf (.task 47) (.drive 31) .toDrive
    let s := withTask 47 k (stepping 127 (.pick 127 15) (some l))
    let m := mountTask .threading
    let d := withTask 47 m (withVol (vol 5 (.drive 31) (some 47)) (driveIn .threading |> withDrive 31 ({ · with bound := some 47 })))
    (s.orders hdr ∧ (∀ o ∈ s.oiu.queues.get 0, o.tag ≠ 9)
      ∧ (∀ u j, s.plant.task? u = some j → u = 47 ∧ j.requester ≠ some (0, 9)) ∧ s.plant.task? 47 = some k
      ∧ k.origin = .path 0 9 ∧ k.answered = false ∧ k.pending = none
      ∧ (s.plant.acc .B).step = some { kind := .pick 127 15, tag := 255, deadline := 100 } ∧ (s.plant.acc .B).leg = some l
      ∧ l.owner = .task 47 ∧ ∀ g, (s.plant.acc Acc.B.other).leg = some g → g.owner ≠ .task 47)
    ∧ (d.orders hdr ∧ (∀ o ∈ d.oiu.queues.get 0, o.tag ≠ 9)
      ∧ (∀ u j, d.plant.task? u = some j → u = 47 ∧ j.requester ≠ some (0, 9)) ∧ d.plant.task? 47 = some m
      ∧ m.serial = some 5 ∧ d.plant.vol? 5 = some (vol 5 (.drive 31) (some 47)) ∧ m.prompt = none
      ∧ (∀ a l, (d.plant.acc a).leg = some l → l.owner ≠ .task 47) ∧ (d.plant.drive 31).bound = some 47
      ∧ (∀ c, (d.plant.drive c).bound = some 47 → c = 31) ∧ (d.plant.drive 31).state = .threading
      ∧ (d.plant.drive 31).unloadSeen = false) :=
  ⟨⟨orders_of rfl rfl (by decide), (fun o h => by cases h), one_task (fun t => free_running t) (by decide), rfl, rfl, rfl, rfl, rfl, rfl, rfl,
      (fun g h => by cases h)⟩,
    orders_of rfl rfl (by decide), (fun o h => by cases h), one_task (fun t => free_running t) (by decide), rfl, rfl, by decide, rfl,
      (fun a l h => by cases a <;> cases h), by decide, by decide, by decide, by decide⟩

/-- A state whose one RECOVERY request is `r`. -/
def requested (r : Request) (s : State) : State := onPlant (fun x => { x with tcu := { x.tcu with requests := [r] } }) s

theorem witness_RecoveryAndRefileTasksAreMade_kinds :
    let base (r : Request) (s : State) := s.free ∧ s.plant.tcu.requests = r :: [] ∧ r ∉ ([] : List Request) ∧ s.plant.task? 47 = none
    let d := requested (.drive 31) (withDrive 31 ({ · with state := .heldReel, unloadSeen := true }) running)
    let u := requested (.gripper .B) (withAcc .B ({ · with gripper := .unknownReel }) running)
    let g (b : Option TaskNo) := requested (.gripper .B) (withVol (vol 5 (.gripper .B) b) (withAcc .B ({ · with gripper := .known 5 }) running))
    let w := withTask 47 { mountTask .waiting with holding := some .B } (g (some 47))
    let n := requested (.service 7) (onPlant (·.setService 7 (Slot.hold .unknown none)) running)
    let v := { vol 5 (.cell 0) none with cls := .visitor }
    let c := requested (.cell 5) (withOcc 0 (.occupied 5) (withVol v running))
    let h : Task := { Task.new .recovery .internal 0 with source := some (.drive 31) }
    (base (.drive 31) d ∧ (d.plant.drive 31).state = .heldReel ∧ (d.plant.drive 31).unloadSeen = true
      ∧ (∀ v k, d.plant.task? v = some k → k.source ≠ some (.drive 31))
      ∧ (withTask 46 h d).plant.task? 46 = some h ∧ h.serial = none ∧ base (.drive 31) (withTask 46 h d))
    ∧ (base (.gripper .B) u ∧ (u.plant.acc .B).gripper = .unknownReel ∧ (∀ l ∈ u.plant.mou.queue, l.src ≠ .gripper .B)
        ∧ (u.plant.acc .B).leg = none ∧ ∀ v k, u.plant.task? v = some k → k.holding ≠ some .B)
    ∧ ((w.plant.task? 47 = some { mountTask .waiting with holding := some .B })
        ∧ w.plant.reelAt { mountTask .waiting with holding := some .B } = some (.gripper .B))
    ∧ (∀ b, base (.gripper .B) (g b) ∧ ((g b).plant.acc .B).gripper = .known 5
        ∧ (g b).plant.vol? 5 = some (vol 5 (.gripper .B) b) ∧ (g b).plant.mou.queue = [] ∧ ((g b).plant.acc .B).leg = none
        ∧ ∀ v k, (g b).plant.task? v = some k → k.holding ≠ some .B)
    ∧ (base (.service 7) n ∧ (n.plant.service 7).state = .occupied ∧ (n.plant.service 7).task = none
        ∧ (n.plant.service 7).content = some .unknown ∧ n.plant.pru.table.length < 32 ∧ n.plant.pru.later = none)
    ∧ (base (.service 7) (requested (.service 7) inService) ∧ (inService.plant.service 7).state = .occupied
        ∧ (inService.plant.service 7).task = none ∧ (inService.plant.service 7).content = some (.known 5)
        ∧ inService.plant.vol? 5 = some (vol 5 (.service 7) none))
    ∧ (base (.cell 5) c ∧ c.plant.vol? 5 = some v ∧ v.cls = .visitor ∧ v.bound = none)
    ∧ ∀ w ∈ (withOcc 0 (.occupied 5) (withVol misfiled running)).plant.ltu.volumes, w.loc ≠ .cell 2047 :=
  ⟨⟨⟨rfl, by decide⟩, by decide, by decide, (fun v k h => by cases (free_running v).symm.trans h), rfl, rfl, rfl, by decide⟩,
    ⟨⟨rfl, by decide⟩, by decide, (fun l h => by cases h), by decide, fun v k h => by cases (free_running v).symm.trans h⟩,
    by decide,
    (fun _ => ⟨⟨rfl, rfl, by decide, by rfl⟩, rfl, rfl, rfl, rfl, fun v k h => by cases (free_running v).symm.trans h⟩),
    ⟨⟨rfl, by decide⟩, by decide⟩, ⟨⟨rfl, by decide⟩, by decide⟩, ⟨⟨rfl, by decide⟩, by decide⟩, by decide⟩

theorem witness_UnloadedClosesOrRequestsRecovery_close :
    let k := mountTask .mounted
    let v := vol 5 (.drive 31) (some 47)
    let s := withEnv (fun e => { e with set := { e.set with mountLimit := 1 } }) (withVol v (withTask 47 k
      (withDrive 31 ({ · with state := .mounted, bound := some 47, mountOpen := true }) running)))
    s.reports ∧ (s.plant.drive 31).state = .mounted ∧ (s.plant.drive 31).bound = some 47 ∧ s.plant.task? 47 = some k
    ∧ k.serial = some 5 ∧ k.pending = none ∧ (s.plant.drive 31).mountOpen = true ∧ s.plant.vol? 5 = some v ∧ v.worn = false
    ∧ s.env.set.mountLimit ≠ 0 ∧ s.env.set.mountLimit ≤ min 65535 (v.mounts + 1) ∧ s.plant.pru.table.length < 32
    ∧ s.plant.pru.later = none := ⟨⟨rfl, nofun⟩, by decide⟩

theorem witness_StepsAreSentAndTravelsArrive_legs :
    let g := legOf (.found 47 true) (.cell 2047) .carry
    let l := legOf (.task 47) (.drive 31) .toDrive
    let k := mountTask .moving
    let s (l : Leg) (e : Bool) := withVol (vol 5 (.cell 2047) (some 47)) (withTask 47 k
      (withAcc .B ({ · with ending := e }) (stepping 80 (.travel 127) (some l))))
    (∀ l e, (s l e).free ∧ (s l e).env.held = false ∧ ((s l e).plant.acc .B).leg = some l ∧ ((s l e).plant.acc .B).ending = e
      ∧ ((s l e).plant.acc .B).step = some { kind := .travel 127, tag := 255, deadline := 100 })
    ∧ g.owner = .found 47 true ∧ l.owner = .task 47 ∧ (s l true).plant.task? 47 = some k ∧ k.pending = none
    ∧ (s l true).plant.reelAt k ≠ some (.gripper .B) :=
  ⟨fun _ _ => ⟨rfl, rfl, rfl, rfl, rfl⟩, rfl, rfl, rfl, rfl, by decide⟩

/-- B STEPPING in a bay with a leg in hand and no step in flight. -/
def standing (bay : Nat) (l : Leg) : State :=
  withAcc .B ({ · with state := .stepping, bay := some bay, gripper := .empty, leg := some l }) running

/-- A WRITE mount's volume in B's gripper in bay 119, its drive 31 reserved: the next step sets the reel on the drive. -/
def setting (v : Volume) : State :=
  withVol v (withTask 47 { mountTask .moving with intent := .write } (withDrive 31 ({ · with state := .reserved, bound := some 47 })
    (withAcc .B ({ · with gripper := .known 5 }) (standing 119 { legOf (.task 47) (.drive 31) .toDrive with picked := true }))))

def ringed : Volume := { vol 5 (.gripper .B) (some 47) with ring := .ringed }

theorem witness_StepsAreSentAndTravelsArrive_next :
    let l := legOf (.task 47) (.drive 31) .toDrive
    let z := { l with src := .cell 1008 }
    let g := { auditLeg .one 127 14 15 with id := 0 }
    let grip (s : State) (a : Acc) := (s.plant.acc a).bay
    let zone (h c : Option Acc) := onPlant (fun x => { x with mou := { x.mou with holder := h, claimant := c } }) (standing 80 z)
    (∀ b l, (standing b l).env.held = false ∧ ((standing b l).plant.acc .B).step = none
      ∧ ((standing b l).plant.acc .B).state = .stepping ∧ ((standing b l).plant.acc .B).leg = some l
      ∧ ((standing b l).plant.acc .B).ending = false ∧ (standing b l).plant.yielding .B = false
      ∧ ((standing b l).plant.acc .B).bay = some b)
    ∧ (l.picked = false ∧ l.owner = .task 47 ∧ l.src.bay (grip (standing 127 l)) = some 127 ∧ l.src.pos = 15)
    ∧ ((setting ringed).plant.task? 47 = some { mountTask .moving with intent := .write }
        ∧ (Location.drive 31).bay (grip (setting ringed)) = some 119 ∧ (Location.drive 31).pos = 1
        ∧ (setting ringed).plant.vol? 5 = some ringed ∧ (setting ringed).env.fenced 5 = false)
    ∧ (g.owner = .audit .one ∧ g.bay = 127 ∧ g.pos = 14 ∧ (standing 127 g).plant.higherWaits .B = false)
    ∧ (z.src.bay (grip (zone none none)) = some 63 ∧ ∀ h c, (zone h c).plant.mou.holder = h ∧ (zone h c).plant.mou.claimant = c) :=
  ⟨fun _ _ => ⟨rfl, rfl, rfl, rfl, rfl, rfl, rfl⟩, by decide, by decide, by decide, by decide, fun _ _ => ⟨rfl, rfl⟩⟩

theorem witness_StepsAreSentAndTravelsArrive_gate :
    let f := withEnv ({ · with fence.working.invert := true }) (setting ringed)
    let w := { ringed with worn := true }
    let n := { ringed with ring := .ringless }
    (∀ v, (setting v).env.held = false ∧ ((setting v).plant.acc .B).step = none
      ∧ ((setting v).plant.acc .B).leg = some { legOf (.task 47) (.drive 31) .toDrive with picked := true }
      ∧ (setting v).plant.task? 47 = some { mountTask .moving with intent := .write }
      ∧ ((setting v).plant.drive 31).bound = some 47 ∧ ((setting v).plant.drive 31).state = .reserved)
    ∧ (∀ c, ((setting ringed).plant.drive c).bound = some 47 ↔ c = 31)
    ∧ f.env.fenced 5 = true
    ∧ ((setting w).plant.vol? 5 = some w ∧ w.loc = .gripper .B ∧ w.bound = some 47)
    ∧ ((setting n).plant.vol? 5 = some n ∧ (setting n).env.fenced 5 = false ∧ n.worn = false
        ∧ (setting n).plant.emptyService = some 0 ∧ capable .B (.gripper .B) (.service 0) = true) :=
  ⟨fun _ => ⟨rfl, rfl, rfl, rfl, rfl, rfl⟩, by decide, by decide, by decide, by decide⟩

/-- The end of an action sends each kind of step. -/
theorem witness_StepsAreSentAndTravelsArrive_settled :
    let l := legOf (.task 47) (.drive 31) .toDrive
    let r := withAcc .B ({ · with state := .recovering, recoverDue := true }) running
    let sent (s : State) := ((s.plant.settle s.env).acc .B).step.map (·.kind)
    sent (standing 80 l) = some (.travel 127) ∧ sent (standing 127 l) = some (.pick 127 15)
    ∧ sent (setting ringed) = some (.place 119 1)
    ∧ sent (standing 127 { auditLeg .one 127 14 15 with id := 0 }) = some (.read 127 14 15)
    ∧ sent r = some (.recover true 80) := ⟨by rfl, by rfl, by rfl, by rfl, by rfl⟩

/-- Task 47's volume at a place, and a PICK of B there in flight for a leg to `dst`. -/
def picking (k : Task) (src dst : Location) (s : State) : State :=
  withVol (vol 5 src (some 47)) (withTask 47 k (withAcc .B (fun c => { c with
    state := .stepping, bay := some 127, gripper := .empty, leg := some { legOf (.task 47) dst .toDrive with src := src },
    step := some { kind := .pick 127 15, tag := 255, deadline := 100 } }) s))

theorem witness_PicksTakeOrMissTheReel_places :
    let k := mountTask .moving
    let j : Task := { k with service := some 7 }
    let e (d : Location) := picking j (.entry 0) d (onPlant (fun x => (x.setService 7 (Slot.reserve 47)).setEntry 0
      (Slot.hold (.known 5) (some 47))) running)
    let d := picking k (.drive 31) (.service 0) (withDrive 31 ({ · with
      state := .unloaded, bound := some 47, volume := some 5, interval := 1, footage := 1 }) running)
    running.free ∧ (∀ k src dst s, ((picking k src dst s).plant.acc .B).leg = some { legOf (.task 47) dst .toDrive with src := src }
      ∧ ((picking k src dst s).plant.acc .B).step = some { kind := .pick 127 15, tag := 255, deadline := 100 }
      ∧ (picking k src dst s).plant.task? 47 = some k)
    ∧ (∀ src ∈ [Location.cell 2047, .service 7, .handoff 3, .entry 7, .drive 31],
        ((picking k src (.drive 0) running).plant.acc .B).ending = false
        ∧ (picking k src (.drive 0) running).plant.vol? 5 = some (vol 5 src (some 47))
        ∧ (picking k src (.drive 0) running).plant.volAt? (.gripper .B) = none
        ∧ src ≠ .outside ∧ src ≠ .unknown ∧ src ≠ .gripper .A ∧ src ≠ .gripper .B)
    ∧ (∀ d ∈ [Location.drive 31, .service 7], j.service = some 7 ∧ (e d).plant.service 7 = Slot.reserve 47
        ∧ (e d).plant.vol? 5 = some (vol 5 (.entry 0) (some 47)) ∧ (e d).plant.volAt? (.gripper .B) = none)
    ∧ ((d.plant.drive 31).bound = some 47 ∧ (d.plant.drive 31).state = .unloaded
        ∧ d.plant.vol? 5 = some (vol 5 (.drive 31) (some 47)) ∧ d.plant.volAt? (.gripper .B) = none
        ∧ ∀ c, (d.plant.drive c).bound = some 47 → c = 31)
    ∧ (let h := Slot.hold (.known 5) (some 47)
       let r := onPlant (fun x => (x.setService 7 h).setHandoff 3 h) running
       ((picking k (.service 7) (.drive 0) r).plant.service 7).content = some (.known 5)
        ∧ ((picking k (.handoff 3) (.drive 0) r).plant.handoff 3).content = some (.known 5)) :=
  ⟨rfl, fun k _ _ _ => ⟨rfl, rfl, by simp [picking, withVol, onPlant, Plant.putVol, withTask, Plant.task?, Plant.putTask]⟩, by decide, by decide, by decide,
    by decide⟩

theorem witness_PicksTakeOrMissTheReel_wrong :
    let k := mountTask .moving
    let x := vol 6 (.cell 0) (some 3)
    let s := withOcc 2047 (.occupied 5) (withVol x (picking k (.cell 2047) (.drive 31) running))
    let n := onPlant (fun y => { y with ltu := { y.ltu with service := Vector.replicate 8 (Slot.reserve 3) } }) s
    (s.free ∧ s.env.held = false ∧ s.plant.task? 47 = some k ∧ k.kind = .mount ∧ k.state = .moving ∧ k.pending = none
      ∧ k.handoff = none ∧ k.service = none ∧ k.cell = none ∧ k.serial = some 5
      ∧ s.plant.vol? 5 = some (vol 5 (.cell 2047) (some 47)) ∧ (s.plant.cell 2047).occ = .occupied 5
      ∧ s.plant.pru.table.length < 31 ∧ s.plant.pru.backlog = [] ∧ s.plant.pru.later = none)
    ∧ (Label.unreadable ≠ .serial 5 ∧ Label.serial 6 ≠ .serial 5 ∧ s.plant.vol? 6 = some x ∧ (∀ i, x.loc ≠ .service i)
        ∧ x.loc ≠ .gripper .B ∧ x.bound ≠ some 47 ∧ s.plant.vol? 7 = none)
    ∧ (s.plant.emptyService = some 0 ∧ n.plant.emptyService = none) :=
  ⟨⟨rfl, by decide⟩, by decide, by decide⟩

theorem witness_PicksTakeOrMissTheReel_outlived :
    let l : Leg := { legOf (.found 47 false) (.service 0) .carry with src := .drive 31 }
    let s := withVol (vol 5 (.drive 31) none) (withDrive 31 ({ · with state := .unloaded, volume := some 5 })
      (stepping 119 (.pick 119 1) (some l)))
    s.free ∧ s.env.held = false ∧ (s.plant.acc .B).step = some { kind := .pick 119 1, tag := 255, deadline := 100 }
    ∧ (s.plant.acc .B).leg = some l ∧ l.owner = .found 47 false ∧ l.src = .drive 31
    ∧ (s.plant.drive 31).state = .unloaded ∧ (s.plant.drive 31).bound = none
    ∧ s.plant.vol? 5 = some (vol 5 (.drive 31) none) ∧ ∀ q, Label.unreadable ≠ .serial q :=
  ⟨rfl, by decide, rfl, rfl, rfl, rfl, by decide, by decide, by decide, nofun⟩

/-- Volume 5, a visitor or with home 0, in the gripper of B for task 47, and a PLACE at `dst` in flight. -/
def placing (v : Volume) (k : Task) (dst : Location) (w : Work) (s : State) : State :=
  withVol v (withTask 47 k (withAcc .B (fun c => { c with
    state := .stepping, bay := some 127, gripper := .known 5, leg := some (legOf (.task 47) dst w),
    step := some { kind := .place 127 15, tag := 255, deadline := 100 } }) s))

theorem witness_PlacesSetTheReelDownOrKeepIt_places :
    let v : Volume := { vol 5 (.gripper .B) (some 47) with home := some 2047 }
    let k : Task := { mountTask .demounting with answered := true, requester := some (3, 8), cell := some 2047 }
    let m := mountTask .moving
    let s (k : Task) (w : Work) := placing v k (.service 7) w (onPlant (·.setService 7 (Slot.reserve 47)) running)
    let h (k : Task) (w : Work) := placing v k (.handoff 3) w
      (onPlant (·.setHandoff 3 (Slot.reserve 47)) (withDrive 31 ({ · with state := .reserved, bound := some 47 }) running))
    (∀ k dst w s, ((placing v k dst w s).plant.acc .B).leg = some (legOf (.task 47) dst w)
      ∧ ((placing v k dst w s).plant.acc .B).gripper = .known 5
      ∧ ((placing v k dst w s).plant.acc .B).step = some { kind := .place 127 15, tag := 255, deadline := 100 })
    ∧ (let c := placing v k (.cell 2047) .store running
       c.free ∧ c.env.held = false ∧ c.plant.task? 47 = some k ∧ k.serial = some 5 ∧ c.plant.vol? 5 = some v
       ∧ v.bound = some 47 ∧ k.prompt = none)
    ∧ ((s k .remove).plant.task? 47 = some k ∧ (s k .remove).plant.vol? 5 = some v
        ∧ ((s k .remove).plant.service 7).task = some 47 ∧ (s k .remove).plant.pru.table.length < 32
        ∧ (s k .remove).plant.pru.later = none ∧ k.state = .demounting)
    ∧ ((s m .ringStop).plant.task? 47 = some m ∧ m.pending = none ∧ m.state ≠ .demounting)
    ∧ ((h m .toDrive).plant.task? 47 = some m ∧ ((h m .toDrive).plant.handoff 3).task = some 47 ∧ m.drive = some 31
        ∧ ((h m .toDrive).plant.drive 31).state = .reserved ∧ k.pending = none ∧ k.cell = some 2047 ∧ 2047 / 16 ≤ 127) :=
  ⟨fun _ _ _ _ => ⟨rfl, rfl, rfl⟩, ⟨rfl, by decide⟩, by decide, by decide, by decide⟩

theorem witness_PlacesSetTheReelDownOrKeepIt_blocked :
    let v : Volume := { vol 5 (.gripper .B) (some 47) with home := some 2047 }
    let k : Task := { mountTask .demounting with cell := some 0 }
    let m := mountTask .moving
    let d := placing v m (.drive 31) .toDrive (withDrive 31 ({ · with state := .reserved, bound := some 47 }) running)
    let c (s : State) := placing v k (.cell 0) .store (withOcc 0 (.reserved (some 5) 47) s)
    let n (w : Work) := placing v k (.service 7) w (onPlant (·.setService 7 (Slot.reserve 47)) running)
    let h := placing v k (.handoff 3) .store (onPlant (·.setHandoff 3 (Slot.reserve 47)) running)
    (d.free ∧ d.env.held = false ∧ d.plant.task? 47 = some m ∧ d.plant.vol? 5 = some v ∧ m.prompt = none
      ∧ m.state ≠ .demounting ∧ (d.plant.drive 31).bound = some 47 ∧ ∀ c, (d.plant.drive c).bound = some 47 → c = 31)
    ∧ (∀ u j, d.plant.task? u = some j → j.waiter = none)
    ∧ ((c running).plant.vol? 5 = some v ∧ (c running).plant.task? 47 = some k ∧ k.cell = some 0 ∧ k.prompt = none
        ∧ ((c running).plant.cell 0).occ = .reserved (some 5) 47 ∧ ((c running).plant.cell 2047).occ = .empty
        ∧ (c running).plant.freeCell = some 1008)
    ∧ (k.service = none ∧ running.plant.emptyService = some 0)
    ∧ (((n .remove).plant.service 7).state = .reserved ∧ (n .remove).plant.emptyService = some 0
        ∧ (n .remove).plant.task? 47 = some k)
    ∧ ((h.plant.handoff 3).state = .reserved ∧ (Location.cell 0).within .B = false ∧ k.pending = none
        ∧ h.plant.task? 47 = some k ∧ h.plant.emptyHandoff = some 0) :=
  ⟨⟨rfl, by decide⟩, nobody_waits (fun t => free_running t) rfl, by decide, by decide, by decide, by decide⟩

theorem witness_PlacesSetTheReelDownOrKeepIt_noCell (v : Volume) (k : Task) :
    let f : CellNo → Occ := fun i => if i = 1008 then .reserved (some 5) 47 else .foreign
    let s := placing v k (.cell 1008) .store (cellsBeing f)
    (s.plant.cell 1008).occ = .reserved (some 5) 47 ∧ s.plant.freeCell = none := by
  intro f s
  have n : ∀ c, f c ≠ .empty := fun c => by
    show (if c = 1008 then Occ.reserved (some 5) 47 else .foreign) ≠ .empty
    split <;> nofun
  exact ⟨occ_being (f := f) rfl (by decide), full_of n rfl⟩

theorem witness_PlacesSetTheReelDownOrKeepIt_carried :
    let v : Volume := { vol 5 (.gripper .B) none with home := some 2047 }
    let c (g : Gripper) (d : Location) := withVol v (withOcc 0 (.reserved none 47) (withAcc .B ({ · with gripper := g })
      (stepping 127 (.place 127 15) (some (legOf (.found 47 true) d .carry)))))
    (∀ g d, (c g d).free ∧ (c g d).env.held = false ∧ ((c g d).plant.acc .B).gripper = g
      ∧ ((c g d).plant.acc .B).leg = some (legOf (.found 47 true) d .carry)
      ∧ ((c g d).plant.acc .B).step = some { kind := .place 127 15, tag := 255, deadline := 100 })
    ∧ (c (.known 5) (.cell 0)).plant.vol? 5 = some v ∧ v.bound = none ∧ v.cls = .resident
    ∧ ((c (.known 5) (.cell 0)).plant.cell 0).occ = .reserved none 47
    ∧ (c (.known 5) (.cell 0)).plant.freeCell = some 1008
    ∧ (c .unknownReel (.cell 0)).plant.freeCell = some 1008 ∧ (Location.cell 1008).within .B = true
    ∧ (c .unknownReel (.cell 0)).plant.emptyHandoff = some 0 :=
  ⟨fun _ _ => ⟨rfl, rfl, rfl, rfl, rfl⟩, by decide⟩

theorem witness_FaultsStopTheAccessor_legs :
    let g := { auditLeg .one 127 14 15 with id := 0 }
    let f := legOf (.found 47 true) (.service 7) .carry
    let l := legOf (.task 47) (.drive 31) .toDrive
    let s (k : Task) (l : Leg) (e : Bool) := withTask 47 k
      (withAcc .B ({ · with ending := e }) (stepping 80 (.pick 80 0) (some l)))
    let r := onPlant (fun x => { x with mgu := { x.mgu with lib := .restarting, ansA := true } }) (stepping 80 (.recover true 80) none)
    (∀ k l e, (s k l e).free ∧ ((s k l e).plant.acc .B).leg = some l ∧ ((s k l e).plant.acc .B).ending = e
      ∧ (s k l e).plant.task? 47 = some k)
    ∧ (l.owner = .task 47 ∧ (mountTask .demounting).state = .demounting ∧ (mountTask .moving).state ≠ .demounting
        ∧ (mountTask .moving).answered = false)
    ∧ (g.owner = .audit .one ∧ running.plant.adu.list1.startPending = false)
    ∧ (f.owner = .found 47 true ∧ f.dst = some (.service 7) ∧ f.work = .carry
        ∧ (legOf (.found 47 false) (.drive 31) .toDrive).work ≠ .carry)
    ∧ (r.free ∧ r.plant.mgu.lib = .restarting ∧ r.plant.mgu.ansA = true ∧ (r.plant.acc .B).leg = none
        ∧ StepKind.recover true 80 = .recover true 80) :=
  ⟨fun _ _ _ => ⟨rfl, rfl, rfl, by simp [withTask, onPlant, Plant.task?, Plant.putTask]⟩, by decide, by decide, by decide,
    rfl, by decide⟩

theorem witness_RecoveredFindsTheAccessor_holder :
    let s (c : Bool) := onPlant (fun x => { x with
        mou := { x.mou with holder := some .B, claimant := some .A, tenure := 600 }
        mgu := { x.mgu with lib := .restarting, ansA := true } }) (stepping 0 (.recover c 80) none)
    (∀ c, (s c).free ∧ ((s c).plant.acc .B).step = some { kind := .recover c 80, tag := 255, deadline := 100 }
      ∧ ((s c).plant.acc .B).leg = none ∧ (s c).plant.mou.holder = some .B ∧ (s c).plant.mgu.lib = .restarting)
    ∧ (∀ t k, (s false).plant.task? t = some k → k.faulted ≠ some .B) ∧ (s false).plant.volAt? (.gripper .B) = none
    ∧ (48 ≤ (79#8).toNat ∧ (79#8).toNat ≤ 127 ∧ ¬(false = true ∧ 48 ≤ (79#8).toNat ∧ (79#8).toNat ≤ 79))
    ∧ (48 ≤ (127#8).toNat ∧ 79 < (127#8).toNat) :=
  ⟨fun _ => ⟨rfl, rfl, rfl, rfl, rfl⟩, (fun t k h => by cases (free_running t).symm.trans h), by decide, by decide, by decide⟩

theorem witness_LibraryStartAndRestart_closes :
    let k : Task := { mountTask .mounted with mountedTick := some 0, mountedMinute := some 0 }
    let s := withTask 47 k (withVol (vol 5 (.drive 31) (some 47))
      (withDrive 31 ({ · with state := .mounted, bound := some 47, mountOpen := true }) oneVolume))
    s.manages hdr ∧ s.plant.mgu.lib = .running ∧ s.plant.task? 47 = some k ∧ k.state = .mounted
    ∧ (s.plant.drive 31).bound = some 47 ∧ (∀ e, e < 31 → (s.plant.drive e).bound ≠ some 47)
    ∧ (s.plant.drive 31).mountOpen = true ∧ k.serial = some 5 ∧ s.plant.vol? 5 = some (vol 5 (.drive 31) (some 47))
    ∧ s.plant.ltu.cells.Pairwise (fun r q => r.num < q.num) :=
  ⟨manages_of rfl rfl rfl, rfl, rfl, rfl, by decide⟩

theorem witness_KeysAnswerPromptsOrBeep_cellAndAccessor :
    let p : Prompt := { prompt .foreign (.acc .B) with params := { cell := some 2047 } }
    let c := withOcc 2047 .foreign (prompting p)
    let q := prompt .accessorFault (.acc .B)
    let a := withTask 47 { mountTask .opwait with prompt := some 65535 } (withEnv ({ · with sw2 := .maintain })
      (withAcc .B ({ · with state := .faulted }) (prompting q)))
    (c.keys ∧ c.plant.pru.find? (key 99 65535).prompt.toNat = some p ∧ c.plant.pru.backlog = [] ∧ p.kind = .foreign
      ∧ p.owner = .acc .B ∧ p.params.cell = some 2047 ∧ (c.plant.cell 2047).occ = .foreign)
    ∧ (a.keys ∧ a.plant.pru.find? (key 0 65535).prompt.toNat = some q ∧ a.plant.pru.backlog = [] ∧ (key 0 65535).console = .two
      ∧ a.env.sw2 = .maintain ∧ (a.plant.acc .B).state = .faulted ∧ q.kind = .accessorFault ∧ q.owner = .acc .B) :=
  ⟨⟨⟨rfl, .inl rfl⟩, by decide⟩, ⟨rfl, .inl rfl⟩, by decide⟩

/-- Task 47 with an open prompt, its volume at a place, a reel of its own in service slot 7, its drive 31 in a state, at a tick. -/
def asking (p : PromptKind) (st : TaskState) (v : Volume) (r : DriveState) (u : Bool) (now : Tick) : State :=
  withEnv ({ · with tick := now }) (withTask 47 { mountTask st with prompt := some 65535 }
    (onPlant (·.setService 7 (Slot.hold (.known 5) (some 47))) (withVol v
      (withDrive 31 ({ · with state := r, unloadSeen := u, bound := some 47 })
        (prompting { prompt p (.task 47) with params := { slot := some (.service 7) } })))))

/-- What the answers of a task's prompt all ask of the state. -/
theorem asking_shared (p : PromptKind) (st : TaskState) (v : Volume) (r : DriveState) (u : Bool) (now : Tick) (n : Byte) :
    let s := asking p st v r u now
    let q : Prompt := { prompt p (.task 47) with params := { slot := some (.service 7) } }
    s.keys ∧ s.plant.pru.find? (key n 65535).prompt.toNat = some q ∧ s.plant.pru.backlog = [] ∧ q.kind = p
    ∧ q.owner = .task 47 ∧ q.number = 65535 ∧ q.params.slot = some (.service 7) ∧ q.deadline = some 200
    ∧ s.plant.task? 47 = some { mountTask st with prompt := some 65535 }
    ∧ (∀ w j, s.plant.task? w = some j → j.waiter = none)
    ∧ ∀ c e, (s.plant.drive c).bound = some 47 → (s.plant.drive e).bound = some 47 → c = e := by
  refine ⟨⟨rfl, .inl rfl⟩, rfl, rfl, rfl, rfl, rfl, rfl, rfl, rfl, nobody_waits (fun t => free_running t) rfl, ?_⟩
  have h : ∀ c, ((asking p st v r u now).plant.drive c).bound = if c = 31 then some 47 else none := by
    intro c
    by_cases g : c = 31
    · subst g; rfl
    · rw [if_neg g]
      show (Drive.bound (Vector.get (vset running.plant.dru.drives 31 _) c)) = none
      rw [get_vset_other _ (fun e => g e.symm)]
      revert c; decide
  intro c e hc he
  rw [h] at hc he
  split at hc
  · split at he
    · simp [*]
    · cases he
  · cases hc

theorem witness_KeysAnswerPromptsOrBeep_tasks :
    let home : Volume := { vol 5 (.service 7) (some 47) with home := some 2047 }
    let visitor : Volume := { home with cls := .visitor, home := none }
    let fetch (l : Location) := asking .fetch .opwait (vol 5 l (some 47)) .reserved false 0
    let ring (v : Volume) := asking .ring .opwait v .reserved false 0
    let pull := asking .ringPull .demounting home .unloaded true 0
    let fail (u : Bool) := asking .threadFail .opwait (vol 5 (.drive 31) (some 47)) .threading u 0
    let pay (r : DriveState) := asking .allowance .opwait (vol 5 (.cell 2047) (some 47)) r false 0
    ((mountTask .opwait).serial = some 5 ∧ (mountTask .opwait).drive = some 31 ∧ (mountTask .opwait).pending = none
      ∧ (mountTask .opwait).kind = .mount ∧ (mountTask .opwait).intent = .read ∧ (mountTask .opwait).service = none
      ∧ (mountTask .opwait).cell = none ∧ (mountTask .opwait).requester = none ∧ (key 7 65535).number.toNat = (7 : Fin 8).val)
    ∧ ((fetch .outside).plant.vol? 5 = some (vol 5 .outside (some 47)) ∧ (fetch .unknown).plant.vol? 5 = some (vol 5 .unknown (some 47))
        ∧ ((fetch .outside).plant.entry 7).state = .empty ∧ (fetch .outside).plant.emptyService = some 0
        ∧ ((fetch .outside).plant.drive 31).state = .reserved ∧ capable .B (.entry 7) (.drive 31) = true)
    ∧ ((ring home).plant.vol? 5 = some home ∧ ((ring home).plant.service 7).state = .occupied
        ∧ ((ring home).plant.drive 31).state = .reserved ∧ capable .B (.service 7) (.drive 31) = true
        ∧ (ring visitor).plant.vol? 5 = some visitor ∧ ((ring home).plant.cell 2047).occ = .empty)
    ∧ (pull.plant.vol? 5 = some home ∧ (pull.plant.cell 2047).occ = .empty)
    ∧ ((ring home).plant.service 7).content = some (.known 5)
    ∧ (∀ u, ((fail u).plant.drive 31).bound = some 47 ∧ ((fail u).plant.drive 31).state = .threading
        ∧ ((fail u).plant.drive 31).unloadSeen = u ∧ (fail u).plant.vol? 5 = some (vol 5 (.drive 31) (some 47))
        ∧ (fail u).plant.emptyService ≠ none)
    ∧ (((pay .cleanDue).plant.drive 31).state = .cleanDue ∧ ((pay .reserved).plant.drive 31).state = .reserved
        ∧ (pay .reserved).plant.vol? 5 = some (vol 5 (.cell 2047) (some 47)) ∧ capable .B (.cell 2047) (.drive 31) = true) := by
  decide

theorem witness_PromptsEscalateAndExpire_tasks :
    let home : Volume := { vol 5 (.service 7) (some 47) with home := some 2047 }
    let visitor : Volume := { home with cls := .visitor, home := none }
    let s (p : PromptKind) := asking p .opwait home .threading false 200
    let pull := asking .ringPull .demounting home .unloaded true 200
    reached (s .fetch).env.tick 200 = true
    ∧ (s .ring).plant.vol? 5 = some home ∧ (mountTask .opwait).pending = none ∧ (mountTask .opwait).cell = none
    ∧ ((s .ring).plant.cell 2047).occ = .empty
    ∧ (asking .ring .opwait visitor .reserved false 200).plant.vol? 5 = some visitor
    ∧ ((s .threadFail).plant.drive 31).bound = some 47 ∧ ((s .threadFail).plant.drive 31).state = .threading
    ∧ ((s .threadFail).plant.drive 31).unloadSeen = false
    ∧ pull.plant.vol? 5 = some home ∧ (pull.plant.cell 2047).occ = .empty ∧ reached pull.env.tick 200 = true := by
  decide

/-- B reads position 14 of bay 127 for list 1 in a state of the tables. -/
def auditing (last : Nat) (s : State) : State :=
  withAcc .B (fun c => { c with
    state := .stepping, bay := some 127, gripper := .empty, leg := some { auditLeg .one 127 14 last with id := 0 },
    step := some { kind := .read 127 14 14, tag := 255, deadline := 100 } }) s

/-- Volume 6 in the cell read, volume 5 elsewhere. -/
def misread (v : Volume) : State :=
  auditing 15 (withOcc 2046 (.occupied 6) (withOcc 0 (.occupied 5) (withVol (vol 6 (.cell 2046) none) (withVol v running))))

theorem misread_believed (v : Volume) (s : v.serial = 5) (l : v.loc ≠ .cell 2046) :
    (∀ q, Occ.occupied 6 = .occupied q ↔ ((misread v).plant.vol? q).map (fun w : Volume => w.loc) = some (.cell 2046))
    ∧ ∀ w ∈ (misread v).plant.ltu.volumes, w.loc = .cell 2046 → Occ.occupied 6 = .occupied w.serial := by
  have e : (misread v).plant.ltu.volumes = [v, vol 6 (.cell 2046) none] := by
    show insertVolume (vol 6 (.cell 2046) none) (insertVolume v []) = _
    have n : ¬ (6 : Serial) < 5 ∧ ¬ (6 : Serial) = 5 := by decide
    simp [insertVolume, vol, Volume.visitor, s, n]
  constructor
  · intro q
    simp only [Plant.vol?, e, List.find?]
    by_cases h : q = 5
    · subst h; simp [s, l]
    · by_cases g : q = 6
      · subst g; simp [s, vol, Volume.visitor]
      · simp [s, vol, Volume.visitor, Ne.symm h, Ne.symm g]
  · intro w hw hl
    rw [e] at hw
    rcases List.mem_cons.mp hw with rfl | hw
    · exact absurd hl l
    · rw [List.mem_singleton.mp hw]; rfl

theorem witness_AuditReadingsCorrectTheCell_serials :
    let v (l : Location) : Volume := { vol 5 l none with home := some 2046, watch := true }
    let u (l : Location) : Volume := { vol 5 l none with cls := .visitor }
    (∀ w, (misread w).free ∧ ((misread w).plant.acc .B).leg = some { auditLeg .one 127 14 15 with id := 0 }
      ∧ ((misread w).plant.acc .B).step = some { kind := .read 127 14 14, tag := 255, deadline := 100 }
      ∧ ((misread w).plant.acc .B).ending = false ∧ ((misread w).plant.acc Acc.B.other).leg = none
      ∧ (misread w).plant.mou.queue = [] ∧ (misread w).plant.pru.table = [] ∧ (misread w).plant.pru.backlog = []
      ∧ (misread w).plant.pru.later = none)
    ∧ ((misread (v (.cell 0))).plant.cell 2046).occ = .occupied 6 ∧ (misread (v (.cell 0))).plant.vol? 5 = some (v (.cell 0))
    ∧ ((misread (v (.cell 0))).plant.cell 0).occ = .occupied 5 ∧ (v (.cell 0)).home = some 2046
    ∧ (misread (v .outside)).plant.vol? 5 = some (v .outside) ∧ (misread (vol 5 .unknown none)).plant.vol? 5 = some (vol 5 .unknown none)
    ∧ (vol 5 .unknown none).home = none
    ∧ (misread (u (.cell 0))).plant.vol? 5 = some (u (.cell 0)) ∧ (u (.cell 0)).misfiled = false
    ∧ (misread (vol 5 (.drive 31) none)).plant.vol? 5 = some (vol 5 (.drive 31) none)
    ∧ (misread (vol 5 .outside none)).plant.vol? 9 = none := by
  refine ⟨fun _ => ⟨rfl, rfl, rfl, rfl, rfl, rfl, rfl, rfl, rfl⟩, ?_⟩
  decide

theorem witness_AuditReadingsCorrectTheCell_others :
    let r := auditing 15 (withOcc 2046 (.reserved (some 5) 47) running)
    let g := withAcc .A ({ · with leg := some { legOf (.task 47) (.drive 31) .toDrive with src := .cell 2046 } }) (auditing 15 running)
    let k : Task := { mountTask .opwait with prompt := some 65535 }
    let v : Volume := { vol 5 .outside (some 47) with cls := .visitor }
    let p := prompt .fetch (.task 47)
    let f := withTask 47 k (auditing 15 (withVol v (withDrive 31 ({ · with state := .reserved, bound := some 47 }) (prompting p))))
    let e (pause : Bool) (n : Nat) (l2 : Nat) := withEnv (fun e => { e with set := { e.set with sweep := vset e.set.sweep 1 (.range 80 0 0 false), l2 := l2 } })
      (onPlant (fun x => { x with adu := { x.adu with list1 := { x.adu.list1 with
        mode := .command, state := .running, next := n, pos := some 14, live := true, pause := pause } } }) (auditing 14 running))
    ((r.plant.cell 2046).occ = .reserved (some 5) 47 ∧ r.plant.mou.queue = [])
    ∧ ((g.plant.acc Acc.B.other).leg = some { legOf (.task 47) (.drive 31) .toDrive with src := .cell 2046 } ∧ g.plant.mou.queue = [])
    ∧ ((f.plant.cell 2046).occ = .empty ∧ (f.plant.acc .A).leg = none ∧ f.plant.mou.queue = [] ∧ f.plant.vol? 5 = some v
        ∧ f.plant.task? 47 = some k ∧ (f.plant.drive 31).state = .reserved ∧ f.plant.pru.table = [p] ∧ p.params.cell = none
        ∧ f.plant.pru.later = none ∧ capable .B (.cell 2046) (.drive 31) = true)
    ∧ (∀ u j, f.plant.task? u = some j → j.waiter = none)
    ∧ (∀ b n l2, (e b n l2).free ∧ (e b n l2).plant.adu.list1.pause = b ∧ (e b n l2).plant.adu.list1.next = n
        ∧ (e b n l2).env.set.l2 = l2 ∧ ((e b n l2).plant.acc .B).leg = some { auditLeg .one 127 14 14 with id := 0 })
    ∧ (64 ≤ 63 + 1 ∧ (e true 0 64).env.set.sweep.get ⟨1, by decide⟩ = .range 80 0 0 false
        ∧ (e true 1 64).env.set.sweep.get ⟨2, by decide⟩ = .fin) := by
  refine ⟨by decide, by decide, by decide, nobody_waits (fun t => free_running t) rfl, fun _ _ _ => ⟨rfl, rfl, rfl, rfl, rfl⟩, ?_⟩
  decide

/-- A prompt of drive 31, CLEAN-DUE or FAULTED over it, bound to task 47 that waits for it or to none. -/
def cleaning (k : PromptKind) (v : Volume) (f : Drive → Drive) : State :=
  withTask 47 { mountTask .waiting with wait := some .clean } (withVol v (withDrive 31 f (prompting (prompt k (.drive 31)))))

theorem witness_RackFullAndCleanAnswersReachTheirOwners :
    let v := vol 5 (.cell 2047) (some 47)
    let due (b : Option TaskNo) (o : Bool) (d : Drive) : Drive := { d with state := .cleanDue, bound := b, offlinePending := o }
    let bad (b : Option TaskNo) (d : Drive) : Drive := { d with state := .faulted, preFault := some .cleanDue, bound := b }
    let r := onPlant (fun x => { x with tcu := { x.tcu with rackFull := true } }) (prompting (prompt .rackFull (.task 47)))
    (∀ k v f n, (cleaning k v f).keys ∧ (cleaning k v f).plant.pru.find? (key n 65535).prompt.toNat = some (prompt k (.drive 31))
      ∧ (cleaning k v f).plant.pru.backlog = [] ∧ (cleaning k v f).plant.pru.table.length ≤ 32 ∧ (cleaning k v f).plant.vol? 5 = (cleaning k v id).plant.vol? 5
      ∧ (cleaning k v f).plant.task? 47 = some { mountTask .waiting with wait := some .clean }
      ∧ (cleaning k v f).plant.drive 31 = f ((prompting (prompt k (.drive 31))).plant.drive 31))
    ∧ (r.keys ∧ r.plant.pru.find? (key 0 65535).prompt.toNat = some (prompt .rackFull (.task 47)))
    ∧ ((due none true ((prompting (prompt .clean (.drive 31))).plant.drive 31)).offlinePending = true
        ∧ (bad none ((prompting (prompt .clean (.drive 31))).plant.drive 31)).preFault = some .cleanDue
        ∧ (bad (some 47) ((prompting (prompt .clean (.drive 31))).plant.drive 31)).bound = some 47)
    ∧ ((cleaning .clean v id).plant.vol? 5 = some v ∧ (mountTask .waiting).serial = some 5 ∧ (mountTask .waiting).drive = some 31
        ∧ (mountTask .waiting).intent = .read ∧ (mountTask .waiting).kind = .mount ∧ capable .B (.cell 2047) (.drive 31) = true)
    ∧ ((cleaning .clean (vol 5 .outside (some 47)) id).plant.vol? 5 = some (vol 5 .outside (some 47))
        ∧ (cleaning .clean (vol 5 .unknown (some 47)) id).plant.vol? 5 = some (vol 5 .unknown (some 47)))
    ∧ (let a := withAcc .B ({ · with state := .held }) (cleaning .clean v (due (some 47) false))
       (a.plant.acc .B).state = .held ∧ a.plant.tcu.rackFull = false ∧ a.plant.pru.table.length < 32 ∧ a.plant.pru.later = none) :=
  ⟨fun _ _ _ _ => ⟨⟨rfl, .inl rfl⟩, rfl, rfl, (by show 1 ≤ 32; decide), rfl, rfl, rfl⟩, ⟨⟨rfl, .inl rfl⟩, rfl⟩, ⟨rfl, rfl, rfl⟩, by decide,
    by decide, rfl, rfl, by decide, rfl⟩

/-- Task 47's volume 5 away from cell 2046, its leg in the queue or none; the positions of a skip; FOREIGN prompts that name
cell 2046, open or backlogged; and a resident whose home is EMPTY or just left. -/
theorem witness_AuditReadingsMeetTasksPromptsAndRefiles :
    let g (a : Location) : Leg := { legOf (.task 47) (.drive 31) .toDrive with src := a }
    let q (a : Location) := idling 127 [g a]
    let h := withAcc .A ({ · with leg := some (g (.cell 0)) }) inCell
    let k : Task := { mountTask .moving with work := some .toDrive, handoff := some 3 }
    let m (k : Task) (v : Volume) (l : List Leg) := onPlant (·.setHandoff 3 (Slot.reserve 47)) (withTask 47 k (withVol v
      (withDrive 31 ({ · with state := .reserved, bound := some 47 }) (idling 127 l))))
    let c : Task := { k with work := some .store, cell := some 2047 }
    let v (l : Location) := vol 5 l (some 47)
    let p : Prompt := { prompt .foreign (.acc .B) with params := { cell := some 2046, ser2 := some 6 } }
    let r : PromptRequest := { number := 65534, kind := .foreign, params := { cell := some 2046, ser2 := some 6 }, owner := .acc .B }
    let f (b : List PromptRequest) := onPlant (fun x => { x with pru := { x.pru with
      table := List.replicate 32 (prompt .watch (.drive 31)), backlog := b } }) (withVol (vol 5 .outside none) running)
    let w (l : Location) : Volume := { vol 5 l none with home := some 2047 }
    let e (l : Location) := withVol (w l) running
    let b := withOcc 2047 (.occupied 5) (e (.cell 2047))
    ((∀ a, g a ∈ (q a).plant.mou.queue) ∧ (h.plant.acc .A).leg = some (g (.cell 0)) ∧ h.plant.vol? 5 = some (v (.cell 0)))
    ∧ ((∀ j v l, (m j v l).plant.pru.later = none ∧ (m j v l).plant.task? 47 = some j ∧ (m j v l).plant.mou.queue = l
          ∧ ((m j v l).plant.cell 2046).occ = .empty ∧ (m j v l).plant.pru.backlog = [])
        ∧ (∀ l ∈ [Location.cell 0, .outside, .unknown], (m k (v l) []).plant.vol? 5 = some (v l))
        ∧ (∀ j ∈ [k, c], j.serial = some 5 ∧ j.prompt = none ∧ j.waiter = none ∧ j.handoff = some 3)
        ∧ ((m k (v (.cell 0)) [g (.cell 0)]).plant.drive 31).state = .reserved
        ∧ (m k (v (.cell 0)) [g (.cell 0)]).plant.handoff 3 = Slot.reserve 47
        ∧ capable .B (.cell 2046) (.drive 31) = true ∧ capable .B (.cell 2046) (.cell 2047) = true
        ∧ (∀ a, ((m k (v (.cell 0)) [g (.cell 0)]).plant.acc a).leg = none))
    ∧ (∀ u j, (withTask 47 k running).plant.task? u = some j → j.waiter = none)
    ∧ ((prompting p).plant.pru.table = [p] ∧ (prompting p).plant.vol? 6 = none ∧ (prompting p).plant.vol? 7 = none)
    ∧ ((f [r]).plant.pru.table.length = 32 ∧ (∀ z ∈ (f [r]).plant.pru.table, z.kind ≠ .foreign ∧ z.number ≠ r.number)
        ∧ r ∈ (f [r]).plant.pru.backlog ∧ (f [r]).plant.vol? 6 = none ∧ (f []).plant.vol? 5 = some (vol 5 .outside none))
    ∧ ((∀ l ∈ [Location.cell 0, .outside, .unknown], (e l).plant.vol? 5 = some (w l)) ∧ ((e .outside).plant.cell 2047).occ = .empty
        ∧ b.plant.vol? 5 = some (w (.cell 2047)) ∧ (b.plant.cell 2047).occ = .occupied 5
        ∧ 8 ≤ ((List.finRange 48).filter fun t => running.plant.task? t = none).length) := by
  refine ⟨⟨fun _ => .head _, rfl, by decide⟩, ⟨fun _ _ _ => ⟨rfl, rfl, rfl, rfl, rfl⟩, by decide, by decide, rfl, rfl, by decide,
    by decide, fun a => by cases a <;> rfl⟩, nobody_waits (fun t => free_running t) rfl, by decide, by decide, by decide⟩

/-- A live pass of list 1: its leg in the queue, or in B's hand with a step in flight or none, ending or not, and a
trigger waiting or not. -/
theorem witness_AuditModesSweepsAndInterval_live :
    let g (l : ListNo) : Leg := { auditLeg l 127 14 15 with id := 0 }
    let live (p : Bool) (s : State) := onPlant (fun x => { x with adu := { x.adu with list1 :=
      { x.adu.list1 with mode := .command, state := .running, live := true, pos := some 14, startPending := p } } }) s
    let q := live false (idling 127 [g .one])
    let h (k : StepKind) (e p : Bool) := live p (withAcc .B ({ · with ending := e }) (stepping 127 k (some (g .one))))
    let n := live false (standing 127 (g .one))
    (q.manages hdr ∧ q.plant.adu.list1.state = .running ∧ q.plant.mou.queue = [g .one] ∧ (g .one).owner = .audit .one)
    ∧ (n.manages hdr ∧ (n.plant.acc .B).leg = some (g .one) ∧ (n.plant.acc .B).step = none ∧ n.plant.mou.queue = []
        ∧ (n.plant.acc .A).leg = none)
    ∧ (∀ k e p, (h k e p).manages hdr ∧ ((h k e p).plant.acc .B).leg = some (g .one)
        ∧ ((h k e p).plant.acc .B).ending = e ∧ (h k e p).plant.adu.list1.startPending = p
        ∧ ((h k e p).plant.acc .B).step = some { kind := k, tag := 255, deadline := 100 } ∧ (h k e p).plant.mou.queue = []
        ∧ ((h k e p).plant.acc .A).leg = none)
    ∧ 14 + [Reading.empty, .empty].length = 15 + 1 ∧ StepKind.travel 127 ≠ .read 127 14 15 :=
  ⟨⟨manages_of rfl rfl rfl, rfl, rfl, rfl⟩, ⟨manages_of rfl rfl rfl, rfl, rfl, rfl, rfl⟩,
    fun _ _ _ => ⟨manages_of rfl rfl rfl, rfl, rfl, rfl, rfl, rfl, rfl⟩, rfl, nofun⟩

/-- A start delimiter inside a frame counts as malformed what came before it and begins the next frame (R230). -/
theorem test_delimiter_begins_the_next_frame :
    Receiver.stream .M .boot [0x00, 0xA5, 0x01, 0xA6, 0xA5, 0x02] = (.within [0x02], [.malformedFrame .M [0x01, 0xA6, 0xA5]]) := by
  decide

/-- A task's leg and an audit leg as READ LEG shows them, in the order of R111. -/
theorem test_leg_fields :
    legFields (legOf (.task 47) (.drive 31) .toDrive)
      = [[47], [0], locationBytes (.cell 2047), locationBytes (.drive 31), [1], [0, 0, 0, 0, 0, 0], [0]]
    ∧ legFields (auditLeg .two 127 14 15) = [[2], [127], [14], [15]] := by decide

/-! ### Witnesses: prompts as they open, as the consoles show them, and the leg queue -/

/-- A CLEAN prompt of urgency 1, a FETCH prompt of urgency 3 skipped at console 2, and an old prompt of urgency 0. -/
def cleanPrompt : Prompt := { prompt .clean (.drive 31) with number := 1, urgency := 1 }
def fetchPrompt : Prompt := { prompt .fetch (.task 47) with number := 2, order := 1, skip2 := true }
def lowPrompt : Prompt := { cleanPrompt with number := 3, urgency := 0, order := 2 }
def shown : State :=
  onPlant (fun x => { x with pru := { x.pru with table := [cleanPrompt, fetchPrompt, lowPrompt], openings := 3 } }) running

theorem shows_of {c : Console} {p : Prompt} {x : Plant} (m : p ∈ x.pru.table) (k : p.skippedAt c = false)
    (r : ∀ q ∈ x.pru.table, q.skippedAt c = false → q ≠ p → q.urgency < p.urgency ∨ (q.urgency = p.urgency ∧ p.order < q.order)) :
    x.showsAt c (some p) :=
  ⟨fun h => (Option.some_ne_none _ h).elim, fun _ h => by cases h; exact ⟨m, k, r⟩⟩

theorem witness_ConsolesShowTheHighestRankedPrompt :
    (State.reset.plant.mgu.lib = .starting ∧ shown.plant.mgu.lib = .running)
    ∧ (∀ p ∈ shown.plant.pru.table, p.urgency ≤ 3) ∧ shown.plant.pru.table.Pairwise fun p q => p.order < q.order :=
  ⟨⟨rfl, rfl⟩, by decide, by decide⟩

theorem witness_ConsolesShowTheHighestRankedPrompt_prompts :
    shown.plant.promptsOk ∧ shown.plant.showsAt .one (some fetchPrompt) ∧ shown.plant.showsAt .two (some cleanPrompt) :=
  ⟨⟨by decide, by decide, by decide, by decide⟩, shows_of (.tail _ (.head _)) rfl (by decide), shows_of (.head _) rfl (by decide)⟩

theorem witness_ConsolesShowTheHighestRankedPrompt_none :
    running.plant.promptsOk ∧ running.plant.showsAt .one none ∧ running.plant.showsAt .two none :=
  ⟨⟨by decide, by decide, by decide, by decide⟩, ⟨fun _ => by decide, fun _ h => (Option.some_ne_none _ h.symm).elim⟩,
    fun _ => by decide, fun _ h => (Option.some_ne_none _ h.symm).elim⟩

def waitingRequest (n : Nat) (k : PromptKind) (o : PromptOwner) : PromptRequest := { number := n, kind := k, params := {}, owner := o }

/-- A table of 32 prompts, the numbers 1 to 32 and the last of them `p`'s own, and a backlog. -/
def crowdedTable (p : Prompt) : List Prompt :=
  { p with number := 1, order := 0 } :: (List.range 31).map fun i => { prompt .watch (.drive 31) with number := i + 2, order := i + 1 }
def crowded (p : Prompt) (b : List PromptRequest) (s : State) : State :=
  onPlant (fun x => { x with pru := { x.pru with table := crowdedTable p, backlog := b, openings := 32 } }) s

theorem crowded_promptsOk {p : Prompt} {r : PromptRequest} {s : State} (u : p.urgency ≤ 3) (n : r.number = 33) :
    (crowded p [r] s).plant.promptsOk := by
  refine ⟨?_, ?_, ?_, ?_⟩
  · simp [crowded, onPlant, crowdedTable, u, prompt]
  · simp [crowded, onPlant, crowdedTable, List.pairwise_map, List.pairwise_lt_range]
  · simp [crowded, onPlant, crowdedTable]; omega
  · show ((crowdedTable p).map (fun q => q.number) ++ [r.number]).Nodup
    rw [n, show (crowdedTable p).map (fun q => q.number) = 1 :: (List.range 31).map (· + 2) by simp [crowdedTable]]
    decide

theorem crowded_requestsOk {p : Prompt} {b : List PromptRequest} {s : State} (h : b.length ≤ 96)
    (l : s.plant.pru.later = none) (r : s.plant.tcu.requests = []) : (crowded p b s).plant.requestsOk :=
  ⟨by simp [crowded, onPlant, crowdedTable], h, l, by
    show s.plant.tcu.requests.Nodup
    rw [r]; exact List.nodup_nil⟩

def behind : PromptRequest := waitingRequest 33 .fetch (.task 3)

theorem witness_PromptsOpenOrJoinTheBacklog :
    let i := waitingRequest 34 .retire (.drive 0)
    let f := waitingRequest 35 .foreign (.acc .A)
    let full (d : PromptRequest) := crowded cleanPrompt (List.replicate 95 behind ++ [d]) running
    (running.plant.requestsOk ∧ running.plant.pru.table.length < 32 ∧ running.plant.pru.lastNumber ≤ 65535)
    ∧ (∀ d, (full d).plant.requestsOk ∧ (full d).plant.pru.table.length = 32 ∧ (full d).plant.pru.backlog.length = 96
        ∧ (full d).plant.pru.backlog = List.replicate 95 behind ++ d :: [])
    ∧ givesWay (List.replicate 95 behind) [] i ∧ givesWay (List.replicate 95 behind) [] f := by
  have e : ∀ d : PromptRequest, (List.replicate 95 behind ++ [d]).length = 96 := fun d => by simp
  refine ⟨⟨⟨by decide, by decide, rfl, by decide⟩, by decide, by decide⟩,
    fun d => ⟨crowded_requestsOk (by rw [e]) rfl rfl, by simp [crowded, onPlant, crowdedTable], e d, rfl⟩,
    .inl ⟨.inr (.inr rfl), fun _ h => by cases h⟩, .inr ⟨fun r h => ?_, ⟨rfl, .A, rfl⟩, fun _ h => by cases h⟩⟩
  rw [List.append_nil] at h
  rw [List.eq_of_mem_replicate h]
  decide

theorem witness_PromptsOpenOrJoinTheBacklog_closing :
    let one := crowded { prompt .watch (.drive 31) with number := 1 } [behind] running
    let k : Task := { mountTask .opwait with prompt := some 1 }
    let v := vol 5 .outside (some 47)
    let al := crowded { prompt .allowance (.task 47) with number := 1 } [behind] (withTask 47 k (withVol v
      (withDrive 31 ({ · with state := .reserved, bound := some 47 }) running)))
    (one.plant.requestsOk ∧ one.plant.pru.table.length = 32 ∧ one.plant.pru.backlog.length < 96)
    ∧ (one.plant.pru.later = none ∧ one.plant.pru.holds 33 ∧ ¬ one.plant.pru.holds 34
        ∧ one.plant.pru.backlog.filter (fun p => p.number ≠ 33) = [] ∧ one.plant.pru.holds 1
        ∧ one.plant.pru.backlog.filter (fun p => p.number ≠ 1) = behind :: []
        ∧ (one.plant.pru.table.filter (fun p => p.number ≠ 1)).length < 32)
    ∧ (one.keys ∧ one.plant.promptsOk
        ∧ one.plant.pru.find? (key 99 1).prompt.toNat = some { prompt .watch (.drive 31) with number := 1 })
    ∧ (al.keys ∧ al.plant.requestsOk ∧ al.plant.promptsOk
        ∧ al.plant.pru.find? (key 255 1).prompt.toNat = some { prompt .allowance (.task 47) with number := 1 }
        ∧ al.plant.task? 47 = some k ∧ k.prompt = some 1 ∧ k.state = .opwait ∧ k.pending = none
        ∧ (al.plant.drive 31).state = .reserved ∧ al.plant.vol? 5 = some v ∧ al.plant.pru.table.length = 32
        ∧ al.plant.pru.backlog = behind :: [])
    ∧ ∀ u j, al.plant.task? u = some j → j.waiter = none :=
  ⟨⟨crowded_requestsOk (by decide) rfl rfl, rfl, by decide⟩,
    ⟨rfl, .inr ⟨_, List.mem_singleton.mpr rfl, rfl⟩, by unfold Pru.holds; decide, rfl, .inl ⟨_, List.mem_cons_self, rfl⟩, rfl, by decide⟩,
    ⟨⟨rfl, .inl rfl⟩, crowded_promptsOk (by decide) rfl, rfl⟩,
    ⟨⟨rfl, .inl rfl⟩, crowded_requestsOk (by decide) rfl rfl, crowded_promptsOk (by decide) rfl, rfl, rfl, rfl, rfl, rfl, rfl, rfl, rfl, rfl⟩,
    nobody_waits (fun t => free_running t) rfl⟩

theorem witness_LegsStandByClassThenAge :
    let l : Leg := { demountLeg with id := 3, joined := 5 }
    let m : Leg := { legOf (.task 46) (.drive 31) .toDrive with id := 4, joined := 6 }
    let s := onPlant (fun x => { x with mou := { x.mou with nextLeg := 5 } }) (withEnv ({ · with tick := 6 }) (idling 127 [m, l]))
    (s.plant.legsOk ∧ s.plant.queueInOrder s.env ∧ ∀ g ∈ s.plant.mou.queue, elapsed g.joined s.env.tick < 281474976710655)
    ∧ (∀ g ∈ s.plant.mou.queue, g.id < s.plant.mou.nextLeg) ∧ (∀ g ∈ s.plant.mou.queue, g.id ≠ 7)
    ∧ ∃ t, exec .tick s = .next t := by
  refine ⟨⟨⟨by decide, by decide, fun t k h w => ?_⟩, by unfold Plant.queueInOrder; decide, by decide⟩, by decide, by decide, _, rfl⟩
  exact absurd (show (none : Option Task) = some k from (free_running t).symm.trans h) nofun

/-! ### Witnesses: a recovered accessor's tasks, the drives' failures, cancels and audit reads of several positions -/

/-- Accessor B on a RECOVER in mode CLEAR, and a state beside it. -/
def regripping (s : State) : State :=
  withAcc .B (fun c => { c with state := .recovering, leg := none,
                                step := some { kind := .recover true 80, tag := 255, deadline := 100 } }) s

theorem witness_RecoveredFindsTheAccessor_reel :
    let s := regripping running
    let w := vol 5 (.cell 2047) none
    let f := regripping (withOcc 2047 (.occupied 5) (withVol w running))
    (s.free ∧ (s.plant.acc .B).step = some { kind := .recover true 80, tag := 255, deadline := 100 } ∧ (s.plant.acc .B).leg = none
      ∧ s.plant.mou.queue = [] ∧ s.plant.pru.table.length < 32 ∧ s.plant.pru.later = none ∧ s.plant.ltu.volumes = []
      ∧ s.plant.vol? 5 = none)
    ∧ (48 ≤ (80#8).toNat ∧ (80#8).toNat ≤ 127 ∧ ¬(true = true ∧ 48 ≤ (80#8).toNat ∧ (80#8).toNat ≤ 79))
    ∧ (∀ t k, s.plant.task? t = some k → k.faulted ≠ some .B ∧ k.holding ≠ some .B)
    ∧ (f.free ∧ f.plant.vol? 5 = some w ∧ w.bound = none ∧ (∀ u ∈ f.plant.ltu.volumes, u.loc ≠ .gripper .B)
        ∧ (f.plant.cell 2047).occ = .occupied 5)
    ∧ ∀ t k, f.plant.task? t = some k → k.faulted ≠ some .B ∧ k.holding ≠ some .B :=
  ⟨⟨rfl, by decide⟩, by decide, (fun t k h => by cases (free_running t).symm.trans h), ⟨rfl, by decide⟩,
    fun t k h => by cases (free_running t).symm.trans h⟩

theorem witness_RecoveredFindsTheAccessor_tasks :
    let k : Task := { mountTask .opwait with work := some .toDrive, faulted := some .B }
    let j : Task := { k with drive := some 0 }
    let p : Task := { k with pending := some .cancelled }
    let v (l : Location) := { vol 5 l (some 47) with home := some 2047 }
    let s (m : Task) (l : Location) (b : State) := regripping (withTask 47 m (withVol (v l) (withDrive 31
      ({ · with state := .reserved, bound := some 47 }) (withDrive 0 ({ · with state := .reserved }) b))))
    let c := s k (.cell 2047) (withOcc 2047 (.occupied 5) running)
    let e := s k (.service 7) (onPlant (·.setService 7 (Slot.hold (.known 5) (some 47))) running)
    (∀ m l b, ((s m l b).plant.acc .B).step = some { kind := .recover true 80, tag := 255, deadline := 100 }
      ∧ ((s m l b).plant.acc .B).leg = none ∧ (s m l b).plant.task? 47 = some m)
    ∧ (∀ m : Task, m.waiter = none → ∀ l u i, (s m l running).plant.task? u = some i →
        i.waiter = none ∧ (u ≠ 47 → i.faulted ≠ some .B ∧ i.holding ≠ some .B))
    ∧ (k.faulted = some .B ∧ k.waiter = none ∧ k.serial = some 5 ∧ k.pending = none ∧ k.state ≠ .demounting
        ∧ k.work = some .toDrive ∧ k.handoff = none ∧ p.waiter = none ∧ p.cell = none)
    ∧ ((s k (.gripper .B) running).plant.vol? 5 = some (v (.gripper .B))
        ∧ (∀ w ∈ (s k (.gripper .B) running).plant.ltu.volumes, w.loc = .gripper .B → w.serial = 5)
        ∧ ((s k (.gripper .B) running).plant.drive 31).state = .reserved ∧ capable .B (.gripper .B) (.drive 31) = true)
    ∧ ((s j (.gripper .B) running).plant.emptyHandoff = some 0 ∧ ((s j (.gripper .B) running).plant.drive 0).state = .reserved
        ∧ capable .A (.gripper .B) (.drive 0) = false ∧ capable .B (.gripper .B) (.drive 0) = false)
    ∧ (c.plant.vol? 5 = some (v (.cell 2047)) ∧ (c.plant.cell 2047).occ = .occupied 5
        ∧ capable .B (.cell 2047) (.drive 31) = true ∧ c.plant.vol? 6 = none ∧ (6 : Serial) ≠ 5)
    ∧ (e.plant.vol? 5 = some (v (.service 7)) ∧ (e.plant.service 7).state = .occupied)
    ∧ (p.pending = some .cancelled ∧ (v (.gripper .B)).cls = .resident
        ∧ ((s p (.gripper .B) running).plant.cell 2047).occ = .empty ∧ capable .B (.gripper .B) (.cell 2047) = true
        ∧ ∀ d, ((s p (.gripper .B) running).plant.drive d).bound = some 47 → d = 31) := by
  refine ⟨fun m l b => ⟨rfl, rfl, (task_of 47 47 m _).trans (if_pos rfl)⟩, fun m w l u i h => ?_, by decide, by decide, by decide, by decide, by decide, by decide⟩
  obtain ⟨rfl, rfl⟩ := only_47 (fun t => free_running t) h
  exact ⟨w, fun n => absurd rfl n⟩

theorem witness_RecoveredFindsTheAccessor_unread :
    let k : Task := { Task.new .enter .internal 0 with
      state := .opwait, work := some .identify, faulted := some .B, source := some (.handoff 3), service := some 7 }
    let s := regripping (withTask 47 k (onPlant (fun x => (x.setHandoff 3 (Slot.hold .unknown (some 47))).setService 7 (Slot.reserve 47))
      running))
    s.free ∧ s.plant.task? 47 = some k ∧ k.serial = none ∧ k.source = some (.handoff 3)
    ∧ (s.plant.handoff 3).state = .occupied ∧ k.work = some .identify ∧ k.pending = none ∧ k.state ≠ .demounting
    ∧ k.service = some 7 ∧ s.plant.service 7 = Slot.reserve 47 ∧ s.plant.ltu.volumes = []
    ∧ capable .B (.gripper .B) (.service 7) = true := ⟨rfl, by decide⟩

/-- Drive 31 THREADING the reel of task 47, a WATCH volume of 254 failures, under a failure limit of 255. -/
def threading (k : Task) (w : Bool) (b : State) : State :=
  withEnv (fun e => { e with set := { e.set with failLimit := 255 } }) (withTask 47 k (withVol
    { vol 5 (.drive 31) (some 47) with watch := w, fails := 254 } (withDrive 31 ({ · with state := .threading, bound := some 47 }) b)))

theorem witness_ReadyMountsAndThreadFailRetries_failures :
    let o : Task := { mountTask .opwait with prompt := some 65535 }
    let p := prompt .threadFail (.task 47)
    let s := threading (mountTask .threading) true running
    let t := threading o false (prompting p)
    (s.reports ∧ (s.plant.drive 31).state = .threading ∧ (s.plant.drive 31).bound = some 47
      ∧ s.plant.task? 47 = some (mountTask .threading) ∧ (s.plant.vol? 5).map (fun v : Volume => v.watch) = some true
      ∧ s.plant.pru.table.length < 31 ∧ s.plant.pru.backlog = [] ∧ s.plant.pru.later = none)
    ∧ (t.reports ∧ t.plant.task? 47 = some o ∧ o.state = .opwait ∧ o.prompt = some p.number ∧ p ∈ t.plant.pru.table
      ∧ p.owner = .task 47 ∧ (t.plant.vol? 5).map (fun v : Volume => v.watch) = some false
      ∧ (t.plant.drive 31).rethreadDone = false ∧ t.plant.pru.table.length < 31 ∧ t.plant.pru.backlog = [])
    ∧ (s.env.set.failLimit ≠ 0 ∧ s.env.set.failLimit ≤ min 255 (254 + 1))
    ∧ ((withDrive 31 ({ · with rethreadDone := true }) s).plant.drive 31).rethreadDone = true :=
  ⟨⟨⟨rfl, nofun⟩, by decide⟩, ⟨⟨rfl, nofun⟩, by decide⟩, by decide, by decide⟩

theorem witness_UnloadedClosesOrRequestsRecovery_trigger :
    let u : Usage := {
      seq := 0, account := 0, volume := 5, drive := 31, path := 0, intent := .read, minute := 0, occupancy := 0, footage := 0,
      blocksRead := 0, blocksWritten := 0, factor := 16, charge := 0, tags := 0 }
    let s (n : Nat) : State := { running with acu := { running.acu with buffer := List.replicate n u } }
    ((s 31).acu.buffer.length + 1 = (s 31).env.set.trigger) ∧ (s 30).acu.buffer.length + 1 ≠ (s 30).env.set.trigger := by
  decide

theorem witness_DrivesGoOfflineOnlineAndFaulted_reports :
    let k : Task := { mountTask .waiting with wait := some .driveFree }
    let v := vol 5 (.cell 2047) (some 47)
    let f (p : DriveState) := withDrive 31 ({ · with state := .faulted, preFault := some p }) running
    let r := withTask 47 k (withVol v (withDrive 31
      ({ · with state := .faulted, preFault := some .reserved, bound := some 47, stray := 65535 }) running))
    (∀ p, (f p).reports ∧ ((f p).plant.drive 31).state = .faulted ∧ ((f p).plant.drive 31).preFault = some p
      ∧ ((f p).plant.drive 31).bound = none)
    ∧ r.reports ∧ (r.plant.drive 31).state = .faulted ∧ (r.plant.drive 31).preFault = some .reserved
    ∧ (r.plant.drive 31).bound = some 47 ∧ r.plant.task? 47 = some k ∧ k.state = .waiting ∧ k.wait = some .driveFree
    ∧ k.intent = .read ∧ k.serial = some 5 ∧ r.plant.vol? 5 = some v ∧ k.drive = some 31
    ∧ capable .B (.cell 2047) (.drive 31) = true :=
  ⟨fun _ => ⟨⟨rfl, nofun⟩, rfl, rfl, rfl⟩, ⟨rfl, nofun⟩, by decide⟩

/-- Task 47 on an operator's prompt of its own, with a cell, a service slot and a handoff slot reserved. -/
theorem witness_CancelFindsItsTarget_reservations :
    let k : Task := { mountTask .opwait with prompt := some 65535, cell := some 2046, service := some 7, handoff := some 3 }
    let p := prompt .fetch (.task 47)
    let s (l : Location) (a : AccState) := withTask 47 k (withDrive 31 ({ · with state := .reserved, bound := some 47 }) (withVol
      (vol 5 l (some 47)) (withOcc 2046 (.reserved (some 5) 47) (withAcc .B ({ · with state := a }) (onPlant
        (fun x => (x.setService 7 (Slot.reserve 47)).setHandoff 3 (Slot.reserve 47)) (prompting p))))))
    (∀ l a, (s l a).orders hdr) ∧ (s .outside .idle).plant.task? 47 = some k
    ∧ (s .outside .idle).plant.vol? 5 = some (vol 5 .outside (some 47))
    ∧ ((s (.gripper .B) .faulted).plant.vol? 5 = some (vol 5 (.gripper .B) (some 47))
        ∧ ((s (.gripper .B) .faulted).plant.acc .B).state = .faulted)
    ∧ (∀ n, ((s .outside .idle).plant.entry n).task ≠ some 47)
    ∧ (∀ n, ((s .outside .idle).plant.service n).task = some 47 →
        ((s .outside .idle).plant.service n).state = .reserved ∧ k.service = some n)
    ∧ (∀ h, ((s .outside .idle).plant.handoff h).task = some 47 →
        ((s .outside .idle).plant.handoff h).state = .reserved ∧ k.handoff = some h)
    ∧ ((s .outside .idle).plant.cell 2046).occ = .reserved (some 5) 47
    ∧ p ∈ (s .outside .idle).plant.pru.table ∧ k.prompt = some p.number ∧ p.owner = .task 47
    ∧ (s .outside .idle).plant.pru.backlog = [] ∧ (s .outside .idle).plant.pru.waiting = [] :=
  ⟨fun _ _ => orders_of rfl rfl rfl, by decide⟩

theorem witness_CancelFindsItsTarget_returns :
    let o : Task := { mountTask .opwait with prompt := some 65535 }
    let p := prompt .ring (.task 47)
    let v (l : Location) (c : VolClass) : Volume := { vol 5 l (some 47) with home := some 2047, cls := c }
    let s (l : Location) (c : VolClass) := withTask 47 o (withDrive 31 ({ · with state := .reserved, bound := some 47 })
      (withVol (v l c) (withAcc .B ({ · with state := .idle }) (onPlant
        (fun x => (x.setService 7 (Slot.hold (.known 5) (some 47))).setHandoff 3 (Slot.hold (.known 5) (some 47))) (prompting p)))))
    let d (u : Bool) := withTask 47 o (withDrive 31 ({ · with state := .threading, unloadSeen := u, bound := some 47 })
      (withVol (v (.drive 31) .resident) (prompting p)))
    (∀ l c, (s l c).orders hdr ∧ (s l c).plant.task? 47 = some o ∧ (s l c).plant.pru.table = [p])
    ∧ (∀ u m, (s (.gripper .B) .resident).plant.task? u = some m → u = 47 ∧ m.requester ≠ some (0, 9))
    ∧ ((s (.gripper .B) .resident).plant.vol? 5 = some (v (.gripper .B) .resident)
        ∧ ((s (.gripper .B) .resident).plant.acc .B).state = .idle
        ∧ ((s (.service 7) .resident).plant.service 7).state = .occupied
        ∧ (∀ a : Acc, ((s (.service 7) .resident).plant.acc a).leg = none)
        ∧ (∀ c, ((s (.service 7) .resident).plant.drive c).bound = some 47 → c = 31)
        ∧ ((s (.service 7) .resident).plant.cell 2047).occ = .empty ∧ o.cell = none ∧ o.requester = none
        ∧ capable .B (.gripper .B) (.cell 2047) = true ∧ capable .B (.service 7) (.cell 2047) = true
        ∧ capable .B (.handoff 3) (.cell 2047) = true)
    ∧ (s (.service 7) .visitor).plant.vol? 5 = some (v (.service 7) .visitor)
    ∧ ∀ u, (d u).orders hdr ∧ (d u).plant.vol? 5 = some (v (.drive 31) .resident) ∧ ((d u).plant.drive 31).unloadSeen = u
        ∧ ((d u).plant.drive 31).state = .threading ∧ ((d u).plant.drive 31).bound = some 47 ∧ p ∈ (d u).plant.pru.table := by
  refine ⟨fun l c => ⟨orders_of rfl rfl rfl, rfl, rfl⟩, one_task (fun t => free_running t) (by decide),
    ⟨rfl, rfl, rfl, fun a => by cases a <;> rfl, by decide⟩, rfl,
    fun u => ⟨orders_of rfl rfl rfl, rfl, rfl, rfl, rfl, List.mem_singleton.mpr rfl⟩⟩

/-- Accessor B reading positions 13 and 14 of bay 127 for a leg of list 2 that goes to `last`. -/
def auditingTwo (last : Nat) (q : List Leg) : State :=
  onPlant (fun x => { x with
      mou := { x.mou with queue := q }, adu := { x.adu with list2 := { x.adu.list2 with state := .running, live := true } } })
    (withAcc .B (fun c => { c with
      state := .stepping, bay := some 127, gripper := .empty, leg := some { auditLeg .two 127 13 last with id := 9 },
      step := some { kind := .read 127 13 14, tag := 255, deadline := 100 } }) running)

/-- A plant after each of a list of things done to it. -/
theorem chain_exists {α : Type} (f : Nat → α → Plant → Plant) (l : List α) (x : Plant) :
    ∃ z : Nat → Plant, z 0 = x ∧ ∀ n (h : n < l.length), z (n + 1) = f n l[n] (z n) :=
  ⟨Nat.rec x fun n y => if h : n < l.length then f n l[n] y else y, rfl, fun n h => by simp [h]⟩

/-- What the two readings EMPTY leave, before the leg goes on. -/
def readTwo (last : Nat) (q : List Leg) : Plant :=
  Plant.judgeReadings (auditingTwo last q).env .B .two 127 13 [.empty, .empty]
    (((auditingTwo last q).plant.updAcc .B fun c => { c with
      step := none, leg := some { auditLeg .two 127 13 last with id := 9, pos := 15, steps := 1 } }).updList .two
        fun c => { c with pos := some 15 })

theorem witness_AuditReadsGoOnPositionByPosition :
    let h := legOf (.task 47) (.drive 31) .toDrive
    (∀ n q, (auditingTwo n q).free
      ∧ ((auditingTwo n q).plant.acc .B).step = some { kind := .read 127 13 14, tag := 255, deadline := 100 }
      ∧ ((auditingTwo n q).plant.acc .B).leg = some { auditLeg .two 127 13 n with id := 9 }
      ∧ ((auditingTwo n q).plant.acc .B).ending = false)
    ∧ (∀ m ∈ (readTwo 15 []).mou.queue, m.cls ≠ .audit → (readTwo 15 []).mayTake .B m = false)
    ∧ (h ∈ (readTwo 15 [h]).mou.queue ∧ h.cls ≠ .audit ∧ (readTwo 15 [h]).mayTake .B h = true) :=
  ⟨fun _ _ => ⟨rfl, rfl, rfl, rfl⟩, by decide, by decide, by decide, by decide⟩

theorem witness_AuditReadsGoOnPositionByPosition_ends :
    let e (pause : Bool) (n : Nat) := withEnv (fun e => { e with set := { e.set with sweep := vset e.set.sweep 1 (.range 80 0 0 false) } })
      (onPlant (fun x => { x with adu := { x.adu with list2 := { x.adu.list2 with next := n, pause := pause } } }) (auditingTwo 14 []))
    let r := withAcc .B ({ · with step := none }) (auditingTwo 15 [])
    (∀ b n, (e b n).free ∧ ((e b n).plant.list .two).next = n ∧ ((e b n).plant.list .two).pause = b
      ∧ ((e b n).plant.acc .B).leg = some { auditLeg .two 127 13 14 with id := 9 })
    ∧ (64 ≤ 63 + 1 ∧ (e true 0).env.set.sweep.get ⟨1, by decide⟩ = .range 80 0 0 false)
    ∧ ((r.plant.acc .B).step = none ∧ (r.plant.acc .B).bay = some 127 ∧ r.env.held = false ∧ (r.plant.acc .B).state = .stepping
      ∧ (r.plant.acc .B).ending = false ∧ r.plant.yielding .B = false) :=
  ⟨fun _ _ => ⟨rfl, rfl, rfl, rfl⟩, by decide, by decide⟩

end Sys2Proof.Tests
end

section
/-!
SUPPORT. Reading the library tables: what the volume table and the cell map read after each write of them, and the
agreement of the tables (`Plant.tablesOk`) by lookups (R4, R6, R7, R14).
-/
namespace Sys2Proof.Machine

/-! ### Lookups in the volume table and the cell map -/

theorem Plant.vol?_serial {x : Plant} {s : Serial} {v : Volume} (h : x.vol? s = some v) : v.serial = s := by
  simpa using List.find?_some h

theorem Plant.vol?_mem {x : Plant} {s : Serial} {v : Volume} (h : x.vol? s = some v) : v ∈ x.ltu.volumes :=
  List.mem_of_find?_eq_some h

/-- In a table in rising order a record is the one found under its serial. -/
theorem Plant.vol?_of_mem {x : Plant} (hr : x.ltu.volumes.Pairwise (fun a b => a.serial < b.serial)) {v : Volume}
    (hv : v ∈ x.ltu.volumes) : x.vol? v.serial = some v := by
  obtain ⟨⟨vs, _, _, _, _⟩, _⟩ := x
  simp only [Plant.vol?] at *
  induction vs with
  | nil => simp at hv
  | cons w ws ih =>
    obtain ⟨hw, hs⟩ := List.pairwise_cons.mp hr
    rcases List.mem_cons.mp hv with rfl | hv
    · simp
    · rw [List.find?_cons_of_neg (by simpa using (hw v hv).ne)]
      exact ih hs hv

@[simp] theorem Plant.cell_num (c : CellNo) (x : Plant) : (x.cell c).num = c := by
  unfold Plant.cell
  split
  · rename_i h; simpa using List.find?_some h
  · rfl

theorem Plant.cell_putOcc (c d : CellNo) (o : Occ) (x : Plant) :
    (x.putOcc c o).cell d = if d = c then { x.cell c with occ := o } else x.cell d := by
  unfold Plant.putOcc
  split
  · subst d
    simpa using Plant.cell_putCell_same { x.cell c with occ := o } x
  · exact Plant.cell_putCell_other (by simpa using Ne.symm ‹_›) x

theorem Plant.cell_setHomeOf (c d : CellNo) (h : Option Serial) (x : Plant) :
    (x.setHomeOf c h).cell d = if d = c then { x.cell c with homeOf := h } else x.cell d := by
  unfold Plant.setHomeOf
  split
  · subst d
    simpa using Plant.cell_putCell_same { x.cell c with homeOf := h } x
  · exact Plant.cell_putCell_other (by simpa using Ne.symm ‹_›) x

/-- The record of a serial depends on the volume table alone. -/
theorem Plant.vol?_congr {x y : Plant} (h : y.ltu.volumes = x.ltu.volumes) (s : Serial) : y.vol? s = x.vol? s := by
  simp [Plant.vol?, h]

/-- A cell depends on the cell map alone. -/
theorem Plant.cell_congr {x y : Plant} (h : y.ltu.cells = x.ltu.cells) (c : CellNo) : y.cell c = x.cell c := by
  simp [Plant.cell, h]

/-- A change of every record that keeps its serial is read back record by record. -/
theorem Plant.vol?_map {x y : Plant} {f : Volume → Volume} (hy : y.ltu.volumes = x.ltu.volumes.map f)
    (hf : ∀ v, (f v).serial = v.serial) (s : Serial) : y.vol? s = (x.vol? s).map f := by
  simpa [Plant.vol?, hy] using find_map_serial hf s x.ltu.volumes

theorem Plant.vol?_updVol {f : Volume → Volume} (hf : ∀ v, (f v).serial = v.serial) (s q : Serial) (x : Plant) :
    (x.updVol s f).vol? q = if q = s then (x.vol? s).map f else x.vol? q := by
  rw [Plant.vol?_map (f := fun v => if v.serial = s then f v else v) rfl (by intro v; split <;> simp [hf])]
  split
  · subst q
    cases h : x.vol? s with
    | none => rfl
    | some v => simp [Plant.vol?_serial h]
  · cases h : x.vol? q with
    | none => rfl
    | some v => simp [Plant.vol?_serial h, ‹q ≠ s›]

theorem Plant.vol?_dropVol (s q : Serial) (x : Plant) : (x.dropVol s).vol? q = if q = s then none else x.vol? q := by
  unfold Plant.vol? Plant.dropVol
  rw [List.find?_filter]
  split
  · subst q; simp
  · congr 1
    funext v
    by_cases h : v.serial = q <;> simp [*]

/-- The entry just put is found under its serial, whatever the order of the table. -/
theorem find_insertVolume_self (v : Volume) (l : List Volume) :
    (insertVolume v l).find? (fun w => w.serial = v.serial) = some v := by
  induction l with
  | nil => simp [insertVolume]
  | cons w ws ih =>
    unfold insertVolume
    split
    · simp
    · split
      · simp
      · rename_i hne
        rw [List.find?_cons_of_neg (by simpa using Ne.symm hne)]
        exact ih

/-- A record put over one of its serial adds no entry, any other adds one. -/
theorem length_insertVolume (v : Volume) {l : List Volume} (h : l.Pairwise (fun a b => a.serial < b.serial)) :
    (insertVolume v l).length
      = if l.find? (fun w => w.serial = v.serial) = none then l.length + 1 else l.length := by
  induction l with
  | nil => simp [insertVolume]
  | cons w ws ih =>
    obtain ⟨hw, hs⟩ := List.pairwise_cons.mp h
    unfold insertVolume
    split
    · rename_i hlt
      have hn : (w :: ws).find? (fun u => u.serial = v.serial) = none := by
        refine List.find?_eq_none.mpr fun u hu => ?_
        rcases List.mem_cons.mp hu with rfl | hu
        · simpa using hlt.ne'
        · simpa using (hlt.trans (hw u hu)).ne'
      rw [if_pos hn]; rfl
    · split
      · rename_i he; simp [he]
      · rename_i hne
        rw [List.find?_cons_of_neg (by simpa using Ne.symm hne), List.length_cons, ih hs]
        split <;> rfl

theorem Plant.vol?_putVol (v : Volume) (q : Serial) (x : Plant) :
    (x.putVol v).vol? q = if q = v.serial then some v else x.vol? q := by
  split
  · subst q; exact find_insertVolume_self v x.ltu.volumes
  · exact find_insertVolume_other (Ne.symm ‹_›) _

/-! ### What `moveVol` does -/

theorem Plant.leaveLoc_cells {s : Serial} {l : Location} (h : ∀ c, l ≠ .cell c) (x : Plant) :
    (x.leaveLoc s l).ltu.cells = x.ltu.cells := by
  unfold Plant.leaveLoc
  split
  · exact absurd rfl (h _)
  all_goals (try split) <;> simp

theorem Plant.enterLoc_cells {s : Serial} {l : Location} (h : ∀ c, l ≠ .cell c) (x : Plant) :
    (x.enterLoc s l).ltu.cells = x.ltu.cells := by
  unfold Plant.enterLoc
  split
  · exact absurd rfl (h _)
  all_goals simp

/-- A record after a move of `s` to `l`. -/
def Volume.moved (s : Serial) (l : Location) (v : Volume) : Volume :=
  if v.serial = s then v.at_ l else v.evicted (some s) l

@[simp] theorem Volume.evicted_serial (k : Option Serial) (l : Location) (v : Volume) :
    (v.evicted k l).serial = v.serial := by unfold Volume.evicted; split <;> rfl

@[simp] theorem Volume.moved_serial (s : Serial) (l : Location) (v : Volume) : (v.moved s l).serial = v.serial := by
  unfold Volume.moved; split
  · rfl
  · simp

@[simp] theorem Plant.leaveLoc_volumes (s : Serial) (l : Location) (x : Plant) :
    (x.leaveLoc s l).ltu.volumes = x.ltu.volumes := by
  unfold Plant.leaveLoc; split <;> (try split) <;> simp

@[simp] theorem Plant.leaveLoc_pool (s : Serial) (l : Location) (x : Plant) :
    (x.leaveLoc s l).ltu.pool = x.ltu.pool := by
  unfold Plant.leaveLoc; split <;> (try split) <;> simp

@[simp] theorem Plant.enterLoc_volumes (s : Serial) (l : Location) (x : Plant) :
    (x.enterLoc s l).ltu.volumes = x.ltu.volumes := by
  unfold Plant.enterLoc; split <;> simp

@[simp] theorem Plant.enterLoc_pool (s : Serial) (l : Location) (x : Plant) :
    (x.enterLoc s l).ltu.pool = x.ltu.pool := by
  unfold Plant.enterLoc; split <;> simp

@[simp] theorem Plant.evict_pool (k : Option Serial) (l : Location) (x : Plant) :
    (x.evict k l).ltu.pool = x.ltu.pool := by
  unfold Plant.evict; split <;> rfl

theorem Plant.moveVol_some {s : Serial} {x : Plant} {v : Volume} (h : x.vol? s = some v) (l : Location) :
    x.moveVol s l = (((x.leaveLoc s v.loc).evict (some s) l).updVol s (·.at_ l)).enterLoc s l := by
  simp [Plant.moveVol, h]

theorem Plant.moveVol_none {s : Serial} {x : Plant} (h : x.vol? s = none) (l : Location) : x.moveVol s l = x := by
  simp [Plant.moveVol, h]

/-- Every record after a move, in the order the table had. -/
theorem Plant.moveVol_volumes {s : Serial} {x : Plant} {v : Volume} (h : x.vol? s = some v) (l : Location) :
    (x.moveVol s l).ltu.volumes = x.ltu.volumes.map (·.moved s l) := by
  rw [Plant.moveVol_some h]
  simp only [Plant.enterLoc_volumes, Plant.updVol_ltu, Plant.evict_volumes, Plant.leaveLoc_volumes, List.map_map]
  refine List.map_congr_left fun w _ => ?_
  unfold Volume.moved
  by_cases hw : w.serial = s
  · simp [hw, Volume.evicted]
  · simp [hw]

theorem Plant.vol?_moveVol {s : Serial} {x : Plant} {v : Volume} (h : x.vol? s = some v) (l : Location) (q : Serial) :
    (x.moveVol s l).vol? q = (x.vol? q).map (·.moved s l) :=
  Plant.vol?_map (Plant.moveVol_volumes h l) (by simp) q

@[simp] theorem Plant.moveVol_pool (s : Serial) (l : Location) (x : Plant) : (x.moveVol s l).ltu.pool = x.ltu.pool := by
  unfold Plant.moveVol; split <;> simp

theorem Plant.occ_leaveLoc (s : Serial) (l : Location) (c : CellNo) (x : Plant) :
    ((x.leaveLoc s l).cell c).occ
      = if l = .cell c ∧ (x.cell c).occ = .occupied s then .empty else (x.cell c).occ := by
  cases l with
  | cell d =>
    simp only [Plant.leaveLoc, Location.cell.injEq]
    by_cases hd : d = c
    · subst d; split <;> simp [Plant.cell_putOcc, *]
    · split <;> simp [Plant.cell_putOcc, hd, Ne.symm hd]
  | _ => exact congrArg CellRec.occ (Plant.cell_congr (Plant.leaveLoc_cells (by simp) x) c)

theorem Plant.homeOf_leaveLoc (s : Serial) (l : Location) (c : CellNo) (x : Plant) :
    ((x.leaveLoc s l).cell c).homeOf = (x.cell c).homeOf := by
  cases l with
  | cell d =>
    simp only [Plant.leaveLoc]
    split
    · rw [Plant.cell_putOcc]; split <;> simp [*]
    · rfl
  | _ => exact congrArg CellRec.homeOf (Plant.cell_congr (Plant.leaveLoc_cells (by simp) x) c)

theorem Plant.occ_enterLoc (s : Serial) (l : Location) (c : CellNo) (x : Plant) :
    ((x.enterLoc s l).cell c).occ = if l = .cell c then .occupied s else (x.cell c).occ := by
  cases l with
  | cell d => simp only [Plant.enterLoc, Plant.cell_putOcc, Location.cell.injEq, eq_comm]; split <;> simp
  | _ => exact congrArg CellRec.occ (Plant.cell_congr (Plant.enterLoc_cells (by simp) x) c)

theorem Plant.homeOf_enterLoc (s : Serial) (l : Location) (c : CellNo) (x : Plant) :
    ((x.enterLoc s l).cell c).homeOf = (x.cell c).homeOf := by
  cases l with
  | cell d => simp only [Plant.enterLoc, Plant.cell_putOcc]; split <;> simp [*]
  | _ => exact congrArg CellRec.homeOf (Plant.cell_congr (Plant.enterLoc_cells (by simp) x) c)

/-- A cell's occupancy after a move: the cell left is EMPTY where it named the volume, the cell come to is OCCUPIED by it. -/
theorem Plant.occ_moveVol {s : Serial} {x : Plant} {v : Volume} (h : x.vol? s = some v) (l : Location) (c : CellNo) :
    ((x.moveVol s l).cell c).occ = if l = .cell c then .occupied s
      else if v.loc = .cell c ∧ (x.cell c).occ = .occupied s then .empty else (x.cell c).occ := by
  rw [Plant.moveVol_some h, Plant.occ_enterLoc, Plant.cell_congr (x := x.leaveLoc s v.loc)
      (by simp [Plant.evict_cells]),
    Plant.occ_leaveLoc]

theorem Plant.homeOf_moveVol (s : Serial) (l : Location) (c : CellNo) (x : Plant) :
    ((x.moveVol s l).cell c).homeOf = (x.cell c).homeOf := by
  unfold Plant.moveVol
  split
  · rfl
  · rename_i v _
    rw [Plant.homeOf_enterLoc, Plant.cell_congr (x := x.leaveLoc s v.loc) (by simp [Plant.evict_cells]),
      Plant.homeOf_leaveLoc]


/-- The cell map keeps its form through a move. -/
theorem Plant.moveVol_cellsOk {x : Plant} (h : cellsOk x.ltu.cells) (s : Serial) (l : Location) :
    cellsOk (x.moveVol s l).ltu.cells := by
  have hput : ∀ (y : Plant) (c : CellNo) (o : Occ), cellsOk y.ltu.cells → cellsOk (y.putOcc c o).ltu.cells :=
    fun y c o hy => by simpa using writeCell_ok _ hy
  have hleave : ∀ m : Location, cellsOk (x.leaveLoc s m).ltu.cells := fun m => by
    by_cases hm : ∃ c, m = .cell c
    · obtain ⟨c, rfl⟩ := hm
      simp only [Plant.leaveLoc]
      split
      · exact hput x c _ h
      · exact h
    · rw [Plant.leaveLoc_cells (by simpa using hm)]; exact h
  have henter : ∀ y : Plant, cellsOk y.ltu.cells → cellsOk (y.enterLoc s l).ltu.cells := fun y hy => by
    by_cases hl : ∃ c, l = .cell c
    · obtain ⟨c, rfl⟩ := hl
      exact hput y c _ hy
    · rw [Plant.enterLoc_cells (by simpa using hl)]; exact hy
  unfold Plant.moveVol
  split
  · exact h
  · exact henter _ (by simpa [Plant.evict_cells] using hleave _)

/-! ### The agreement of the library tables -/

/-- What `Plant.tablesOk` says, by what the tables read under a serial and under a cell number. -/
structure Plant.Agree (x : Plant) : Prop where
  rising : x.ltu.volumes.Pairwise (fun v w => v.serial < w.serial)
  size : x.ltu.volumes.length ≤ 4096
  apart : ∀ q r v w, x.vol? q = some v → x.vol? r = some w → v.loc = w.loc → v.loc.shared = false → q = r
  cells : cellsOk x.ltu.cells
  occ : ∀ c q, (x.cell c).occ = .occupied q ↔ ∃ v, x.vol? q = some v ∧ v.loc = .cell c
  home : ∀ c q, (x.cell c).homeOf = some q ↔ ∃ v, x.vol? q = some v ∧ v.home = some c
  marks : ∀ q v, x.vol? q = some v → v.misfiled = v.misfiledAt v.loc ∧ (v.refilePending = true → v.misfiled = true)
  once : x.ltu.pool.Nodup
  scratch : ∀ q, q ∈ x.ltu.pool ↔ ∃ v, x.vol? q = some v ∧ v.scratch = true

theorem Location.shared_eq_false {l : Location} : l.shared = false ↔ l ≠ .outside ∧ l ≠ .unknown := by
  cases l <;> simp [Location.shared]

theorem Volume.misfiledAt_iff (v : Volume) (l : Location) :
    v.misfiledAt l = true ↔ v.cls = .resident ∧ ∃ c, l = .cell c ∧ v.home ≠ some c := by
  cases l <;> simp [Volume.misfiledAt]

theorem Plant.exists_mem_iff {x : Plant} (hr : x.ltu.volumes.Pairwise (fun a b => a.serial < b.serial)) (q : Serial)
    (p : Volume → Prop) : (∃ v ∈ x.ltu.volumes, v.serial = q ∧ p v) ↔ ∃ v, x.vol? q = some v ∧ p v := by
  constructor
  · rintro ⟨v, hv, rfl, hp⟩
    exact ⟨v, Plant.vol?_of_mem hr hv, hp⟩
  · rintro ⟨v, hv, hp⟩
    exact ⟨v, Plant.vol?_mem hv, Plant.vol?_serial hv, hp⟩

theorem Plant.tablesOk_iff_agree (x : Plant) : x.tablesOk ↔ x.Agree := by
  constructor
  · rintro ⟨⟨hr, hn⟩, ha, ⟨hc, hl⟩, ho, hh, hm, hp, hs⟩
    have mem := fun q v (h : x.vol? q = some v) => Plant.vol?_mem h
    refine ⟨hr, hn, fun q r v w hv hw e h => ?_, ⟨hc, fun r h => by have := hl r h; tauto⟩, fun c q => ?_,
        fun c q => ?_,
      fun q v hv => ⟨?_, (hm v (mem q v hv)).2⟩, hp, fun q => ?_⟩
    · obtain ⟨h1, h2⟩ := Location.shared_eq_false.mp h
      rw [← Plant.vol?_serial hv, ← Plant.vol?_serial hw]
      exact ha v (mem q v hv) w (mem r w hw) e h1 h2
    · rw [ho, Plant.exists_mem_iff hr]
    · rw [hh, Plant.exists_mem_iff hr]
    · rw [Bool.eq_iff_iff, Volume.misfiledAt_iff, (hm v (mem q v hv)).1]
    · rw [hs, Plant.exists_mem_iff hr]
  · rintro ⟨hr, hn, ha, ⟨hc, hl⟩, ho, hh, hm, hp, hs⟩
    have read := fun v (h : v ∈ x.ltu.volumes) => Plant.vol?_of_mem hr h
    refine ⟨⟨hr, hn⟩, fun v hv w hw e h1 h2 => ?_, ⟨hc, fun r h => by have := hl r h; tauto⟩, fun c q => ?_,
        fun c q => ?_,
      fun v hv => ⟨?_, (hm _ v (read v hv)).2⟩, hp, fun q => ?_⟩
    · exact ha _ _ v w (read v hv) (read w hw) e (Location.shared_eq_false.mpr ⟨h1, h2⟩)
    · rw [ho, Plant.exists_mem_iff hr]
    · rw [hh, Plant.exists_mem_iff hr]
    · rw [← Volume.misfiledAt_iff, (hm _ v (read v hv)).1]
    · rw [hs, Plant.exists_mem_iff hr]

end Sys2Proof.Machine
end

section
/-!
SUPPORT. Agreement of the library tables is kept by each write of them: a record changed, a cell changed, a location
written, an entry deleted or loaded, a flag set, a restart (R6, R7, R10-R13, R18, R22, R26).
-/
namespace Sys2Proof.Machine

/-! ### The operations that keep the tables in agreement -/

/-- A record is marked as R7 has it. -/
def Volume.marked (v : Volume) : Prop := v.misfiled = v.misfiledAt v.loc ∧ (v.refilePending = true → v.misfiled = true)

theorem Volume.at_marked (l : Location) (v : Volume) : (v.at_ l).marked :=
  ⟨by cases l <;> rfl, by simp [Volume.at_]⟩

theorem Volume.evicted_cases (k : Option Serial) (l : Location) (v : Volume) :
    v.evicted k l = v ∨ (v.evicted k l = v.at_ .unknown ∧ v.loc = l ∧ l.shared = false ∧ some v.serial ≠ k) := by
  unfold Volume.evicted
  split
  · rename_i h; exact .inr ⟨rfl, h.2.1, h.1, h.2.2⟩
  · exact .inl rfl

theorem Volume.evicted_marked {k : Option Serial} {l : Location} {v : Volume} (h : v.marked) :
    (v.evicted k l).marked := by
  rcases v.evicted_cases k l with e | ⟨e, -⟩ <;> rw [e]
  · exact h
  · exact v.at_marked _

theorem Volume.moved_marked {s : Serial} {l : Location} {v : Volume} (h : v.marked) : (v.moved s l).marked := by
  unfold Volume.moved
  split
  · exact v.at_marked l
  · exact Volume.evicted_marked h

@[simp] theorem Volume.evicted_home (k : Option Serial) (l : Location) (v : Volume) :
    (v.evicted k l).home = v.home := by
  unfold Volume.evicted; split <;> rfl

@[simp] theorem Volume.evicted_scratch (k : Option Serial) (l : Location) (v : Volume) :
    (v.evicted k l).scratch = v.scratch := by
  unfold Volume.evicted; split <;> rfl

@[simp] theorem Volume.moved_home (s : Serial) (l : Location) (v : Volume) : (v.moved s l).home = v.home := by
  unfold Volume.moved; split
  · rfl
  · simp

@[simp] theorem Volume.moved_scratch (s : Serial) (l : Location) (v : Volume) : (v.moved s l).scratch = v.scratch := by
  unfold Volume.moved; split
  · rfl
  · simp

/-- A record is at a place that holds one volume, after an `evict`, exactly if it was there before and has been kept. -/
theorem Volume.evicted_loc_iff {k : Option Serial} {l m : Location} {v : Volume} (hm : m.shared = false) :
    (v.evicted k l).loc = m ↔ v.loc = m ∧ (m = l → some v.serial = k) := by
  have hu : Location.unknown ≠ m := by rintro rfl; simp [Location.shared] at hm
  rcases v.evicted_cases k l with e | ⟨e, h1, h2, h3⟩
  · rw [e]
    refine ⟨fun h => ⟨h, fun hl => ?_⟩, And.left⟩
    by_contra hk
    have : (v.evicted k l).loc = .unknown := by simp [Volume.evicted, ← hl, hm, h, hk, Volume.at_]
    exact hu (by rw [← this, e, h])
  · rw [e]
    simp only [Volume.at_, hu, false_iff, not_and]
    rintro rfl h
    exact h3 (h h1)

theorem Volume.moved_loc_iff {s : Serial} {l m : Location} {v : Volume} (hm : m.shared = false) :
    (v.moved s l).loc = m ↔ if v.serial = s then l = m else v.loc = m ∧ m ≠ l := by
  unfold Volume.moved
  split
  · rfl
  · rename_i h
    rw [Volume.evicted_loc_iff hm]
    simp [h]

/-- Records changed one by one, each keeping its serial, home and SCRATCH and marked as R7 has it. -/
theorem Plant.Agree.of_map {x y : Plant} (h : x.Agree) {f : Volume → Volume}
    (hv : y.ltu.volumes = x.ltu.volumes.map f) (hs : ∀ v, (f v).serial = v.serial)
    (hf : ∀ q v, x.vol? q = some v → (f v).home = v.home ∧ (f v).scratch = v.scratch ∧ (f v).marked)
    (hp : y.ltu.pool = x.ltu.pool) (hc : cellsOk y.ltu.cells) (hh : ∀ c, (y.cell c).homeOf = (x.cell c).homeOf)
    (ha : ∀ q r v w, x.vol? q = some v → x.vol? r = some w → (f v).loc = (f w).loc → (f v).loc.shared = false → q = r)
    (ho : ∀ c q, (y.cell c).occ = .occupied q ↔ ∃ v, x.vol? q = some v ∧ (f v).loc = .cell c) : y.Agree := by
  have read : ∀ q, y.vol? q = (x.vol? q).map f := Plant.vol?_map hv hs
  refine ⟨?_, by rw [hv, List.length_map]; exact h.size, ?_, hc, fun c q => ?_, fun c q => ?_, ?_, hp ▸ h.once,
      fun q => ?_⟩
  · rw [hv, List.pairwise_map]
    simpa only [hs] using h.rising
  · simp only [read, Option.map_eq_some_iff]
    rintro q r _ _ ⟨v, hq, rfl⟩ ⟨w, hr, rfl⟩
    exact ha q r v w hq hr
  · simp [ho, read]
  · rw [hh, h.home]
    simp only [read, Option.map_eq_some_iff, exists_exists_and_eq_and]
    exact exists_congr fun v => and_congr_right fun hq => by rw [(hf q v hq).1]
  · simp only [read, Option.map_eq_some_iff]
    rintro q _ ⟨v, hq, rfl⟩
    exact (hf q v hq).2.2
  · rw [hp, h.scratch]
    simp only [read, Option.map_eq_some_iff, exists_exists_and_eq_and]
    exact exists_congr fun v => and_congr_right fun hq => by rw [(hf q v hq).2.1]

/-- Records changed one by one, each where it was. -/
theorem Plant.Agree.of_map_loc {x y : Plant} (h : x.Agree) {f : Volume → Volume}
    (hv : y.ltu.volumes = x.ltu.volumes.map f) (hs : ∀ v, (f v).serial = v.serial)
    (hf : ∀ q v, x.vol? q = some v →
      (f v).home = v.home ∧ (f v).scratch = v.scratch ∧ (f v).loc = v.loc ∧ (v.marked → (f v).marked))
    (hp : y.ltu.pool = x.ltu.pool) (hc : y.ltu.cells = x.ltu.cells) : y.Agree := by
  refine h.of_map hv hs (fun q v hq => ?_) hp (hc ▸ h.cells) (fun c => by rw [Plant.cell_congr hc])
    (fun q r v w hq hr => ?_) fun c q => ?_
  · obtain ⟨hh, hk, -, hm⟩ := hf q v hq
    exact ⟨hh, hk, hm (h.marks q v hq)⟩
  · rw [(hf q v hq).2.2.1, (hf r w hr).2.2.1]
    exact h.apart q r v w hq hr
  · rw [Plant.cell_congr hc, h.occ]
    exact exists_congr fun v => and_congr_right fun hq => by rw [(hf q v hq).2.2.1]

theorem Plant.Agree.of_tables {x y : Plant} (h : x.Agree) (hv : y.ltu.volumes = x.ltu.volumes)
    (hp : y.ltu.pool = x.ltu.pool) (hc : y.ltu.cells = x.ltu.cells) : y.Agree :=
  h.of_map_loc (f := id) (by simp [hv]) (fun _ => rfl) (fun _ _ _ => ⟨rfl, rfl, rfl, id⟩) hp hc

/-- A record changed where it is, its serial, home, class and SCRATCH kept, and MISFILED too; the refile pending mark stands
only beside MISFILED. -/
theorem Plant.Agree.updVol {x : Plant} (h : x.Agree) {s : Serial} {f : Volume → Volume}
    (hf : ∀ v, (f v).serial = v.serial ∧ (f v).home = v.home ∧ (f v).scratch = v.scratch ∧ (f v).loc = v.loc
      ∧ (f v).cls = v.cls ∧ (f v).misfiled = v.misfiled)
    (hr : ∀ v, x.vol? s = some v → (f v).refilePending = true → v.refilePending = true ∨ v.misfiled = true) :
    (x.updVol s f).Agree := by
  refine h.of_map_loc (f := fun v => if v.serial = s then f v else v) rfl
    (by intro v; split <;> simp [hf]) (fun q v hq => ?_) rfl rfl
  split
  · obtain ⟨-, hh, hk, hl, hc, hm⟩ := hf v
    refine ⟨hh, hk, hl, fun ⟨m1, m2⟩ => ⟨?_, fun hp => ?_⟩⟩
    · rw [hm, m1, hl, Bool.eq_iff_iff, Volume.misfiledAt_iff, Volume.misfiledAt_iff, hc, hh]
    · rw [hm]
      have hs : q = s := by rw [← Plant.vol?_serial hq]; assumption
      exact (hr v (hs ▸ hq) hp).elim m2 id
  · exact ⟨rfl, rfl, rfl, id⟩

/-- A cell that names no volume comes to another occupancy that names none, and no volume is located there (R6, R14). -/
theorem Plant.Agree.setOcc {x : Plant} (h : x.Agree) (c : CellNo) {o : Occ} (ho : ∀ q, o ≠ .occupied q) :
    (x.setOcc c o).Agree := by
  have hcell : ∀ d, (x.setOcc c o).cell d = if d = c then { x.cell c with occ := o } else x.cell d := fun d => by
    rw [Plant.setOcc, Plant.cell_putOcc, Plant.cell_congr (Plant.evict_cells _ _ x), Plant.cell_congr
        (Plant.evict_cells _ _ x)]
  refine h.of_map (f := (·.evicted none (.cell c))) (by simp [Plant.setOcc, Plant.evict_volumes]) (by simp)
    (fun q v hq => ⟨by simp, by simp, Volume.evicted_marked (h.marks q v hq)⟩) (by simp [Plant.setOcc]) ?_ (fun d => ?_)
    (fun q r v w hq hr e hl => ?_) fun d q => ?_
  · simpa [Plant.setOcc, Plant.evict_cells] using writeCell_ok _ h.cells
  · rw [hcell]; split <;> simp [*]
  · have hv := (Volume.evicted_loc_iff hl).mp rfl
    have hw := (Volume.evicted_loc_iff hl).mp e.symm
    exact h.apart q r v w hq hr (hv.1.trans hw.1.symm) (hv.1 ▸ hl)
  · rw [hcell]
    by_cases hd : d = c
    · simp only [hd, if_true, ho, false_iff, not_exists, not_and]
      intro v _ e
      simpa using ((Volume.evicted_loc_iff (by rfl)).mp e).2 rfl
    · rw [if_neg hd, h.occ]
      refine exists_congr fun v => and_congr_right fun _ => ?_
      rw [Volume.evicted_loc_iff (by rfl)]
      simp [hd]

/-- A cell that names no volume becomes EMPTY (R14). -/
theorem Plant.Agree.putOcc_empty {x : Plant} (h : x.Agree) {c : CellNo} (ho : ∀ q, (x.cell c).occ ≠ .occupied q) :
    (x.putOcc c .empty).Agree := by
  refine h.of_map (f := id) (by simp) (fun _ => rfl) (fun q v hq => ⟨rfl, rfl, h.marks q v hq⟩) (by simp) ?_
      (fun d => ?_)
    (fun q r v w hq hr => h.apart q r v w hq hr) fun d q => ?_
  · simpa using writeCell_ok _ h.cells
  · rw [Plant.cell_putOcc]; split <;> simp [*]
  · rw [Plant.cell_putOcc]
    by_cases hd : d = c
    · have hn := mt (h.occ c q).mpr (ho q)
      simpa [hd] using hn
    · rw [if_neg hd]; exact h.occ d q

/-- Every write of a location (R6). -/
theorem Plant.Agree.moveVol {x : Plant} (h : x.Agree) (s : Serial) (l : Location) : (x.moveVol s l).Agree := by
  cases hx : x.vol? s with
  | none => rwa [Plant.moveVol_none hx]
  | some u =>
    have hu := Plant.vol?_serial hx
    refine h.of_map (Plant.moveVol_volumes hx l) (by simp)
      (fun q v hq => ⟨by simp, by simp, Volume.moved_marked (h.marks q v hq)⟩) (by simp)
          (Plant.moveVol_cellsOk h.cells s l)
      (fun c => Plant.homeOf_moveVol s l c x) (fun q r v w hq hr e hl => ?_) fun c q => ?_
    · have hv := (Volume.moved_loc_iff hl).mp rfl
      have hw := (Volume.moved_loc_iff hl).mp e.symm
      rw [Plant.vol?_serial hq] at hv
      rw [Plant.vol?_serial hr] at hw
      split at hv <;> split at hw
      · rw [‹q = s›, ‹r = s›]
      · exact absurd hv.symm hw.2
      · exact absurd hw.symm hv.2
      · exact h.apart q r v w hq hr (hv.1.trans hw.1.symm) (hv.1 ▸ hl)
    · rw [Plant.occ_moveVol hx]
      simp only [Volume.moved_loc_iff (m := .cell c) rfl]
      by_cases hl : l = .cell c
      · subst hl
        simp only [if_true, Occ.occupied.injEq]
        constructor
        · rintro rfl; exact ⟨u, hx, by simp [hu]⟩
        · rintro ⟨v, hq, e⟩
          rw [Plant.vol?_serial hq] at e
          by_contra hne
          simp [Ne.symm hne] at e
      · simp only [hl, if_false, ne_eq, Ne.symm hl, not_false_eq_true, and_true, if_false_left]
        by_cases hs : q = s
        · subst hs
          have hn : ¬ ∃ v, x.vol? q = some v ∧ ¬ v.serial = q ∧ v.loc = .cell c := by
            rintro ⟨v, hq, hne, -⟩; exact hne (Plant.vol?_serial hq)
          simp only [hn, iff_false]
          split
          · simp
          · rename_i hc
            intro e
            obtain ⟨v, hq, hv⟩ := (h.occ c q).mp e
            rw [hx] at hq
            obtain rfl := Option.some.inj hq
            exact hc ⟨hv, e⟩
        · have ho : (∃ v, x.vol? q = some v ∧ ¬ v.serial = s ∧ v.loc = .cell c) ↔ (x.cell c).occ = .occupied q := by
            rw [h.occ]
            refine exists_congr fun v => and_congr_right fun hq => ?_
            simp [Plant.vol?_serial hq, hs]
          rw [ho]
          split
          · rename_i hc; simp [hc.2, Ne.symm hs]
          · rfl

/-! ### New and deleted records, SCRATCH and the homes -/

theorem Plant.vol?_deleteVol (s q : Serial) (x : Plant) :
    (x.deleteVol s).vol? q = if q = s then none else x.vol? q := by
  unfold Plant.deleteVol
  split
  · rename_i h
    split
    · rwa [‹q = s›]
    · rfl
  · dsimp only
    rw [Plant.vol?_dropVol]
    split
    · rfl
    · exact Plant.vol?_congr (by split <;> simp) q

theorem Plant.deleteVol_some {s : Serial} {x : Plant} {v : Volume} (h : x.vol? s = some v) :
    (x.deleteVol s).ltu.volumes = x.ltu.volumes.filter (fun w => w.serial ≠ s)
      ∧ (x.deleteVol s).ltu.pool = x.ltu.pool.filter (· ≠ s) := by
  simp only [Plant.deleteVol, h]
  split <;> simp

theorem Plant.occ_deleteVol {s : Serial} {x : Plant} {v : Volume} (h : x.vol? s = some v) (c : CellNo) :
    ((x.deleteVol s).cell c).occ
      = if v.loc = .cell c ∧ (x.cell c).occ = .occupied s then .empty else (x.cell c).occ := by
  have hl : (((x.leaveLoc s v.loc).leavePool s).cell c).occ = _ :=
    (congrArg CellRec.occ (Plant.cell_congr (x := x.leaveLoc s v.loc) rfl c)).trans (Plant.occ_leaveLoc s v.loc c x)
  simp only [Plant.deleteVol, h]
  cases v.home with
  | none => exact hl
  | some d =>
    rw [← hl]
    refine (congrArg CellRec.occ (Plant.cell_congr (by rfl) c)).trans
      (congrArg CellRec.occ (Plant.cell_setHomeOf d c none ((x.leaveLoc s v.loc).leavePool s)) |>.trans ?_)
    split <;> simp [*]

theorem Plant.homeOf_deleteVol {s : Serial} {x : Plant} {v : Volume} (h : x.vol? s = some v) (c : CellNo) :
    ((x.deleteVol s).cell c).homeOf = if v.home = some c then none else (x.cell c).homeOf := by
  have hl : (((x.leaveLoc s v.loc).leavePool s).cell c).homeOf = _ :=
    (congrArg CellRec.homeOf (Plant.cell_congr (x := x.leaveLoc s v.loc) rfl c)).trans
        (Plant.homeOf_leaveLoc s v.loc c x)
  simp only [Plant.deleteVol, h]
  cases v.home with
  | none => exact hl
  | some d =>
    rw [← hl]
    refine (congrArg CellRec.homeOf (Plant.cell_congr (by rfl) c)).trans
      (congrArg CellRec.homeOf (Plant.cell_setHomeOf d c none ((x.leaveLoc s v.loc).leavePool s)) |>.trans ?_)
    simp only [Option.some.injEq, @eq_comm _ d c]
    split <;> rfl

theorem Plant.leaveLoc_cellsOk {x : Plant} (h : cellsOk x.ltu.cells) (s : Serial) (l : Location) :
    cellsOk (x.leaveLoc s l).ltu.cells := by
  by_cases hl : ∃ c, l = .cell c
  · obtain ⟨c, rfl⟩ := hl
    simp only [Plant.leaveLoc]
    split
    · simpa using writeCell_ok _ h
    · exact h
  · rw [Plant.leaveLoc_cells (by simpa using hl)]; exact h

theorem Plant.deleteVol_cellsOk {x : Plant} (h : cellsOk x.ltu.cells) (s : Serial) : cellsOk
    (x.deleteVol s).ltu.cells := by
  unfold Plant.deleteVol
  split
  · exact h
  · dsimp only
    split
    · simpa using writeCell_ok _ (Plant.leaveLoc_cellsOk h s _)
    · simpa using Plant.leaveLoc_cellsOk h s _

/-- Deletion of an entry: its cell, its home cell and the pool name it no more (R12, R73). -/
theorem Plant.Agree.deleteVol {x : Plant} (h : x.Agree) (s : Serial) : (x.deleteVol s).Agree := by
  cases hx : x.vol? s with
  | none => simpa [Plant.deleteVol, hx] using h
  | some u =>
    obtain ⟨hv, hp⟩ := Plant.deleteVol_some hx
    have read : ∀ q v, (x.deleteVol s).vol? q = some v ↔ q ≠ s ∧ x.vol? q = some v := fun q v => by
      rw [Plant.vol?_deleteVol]; split <;> simp [*]
    refine ⟨hv ▸ h.rising.filter _, ?_, fun q r v w hq hr => ?_, Plant.deleteVol_cellsOk h.cells s, fun c q => ?_,
      fun c q => ?_, fun q v hq => ?_, hp ▸ h.once.filter _, fun q => ?_⟩
    · rw [hv]; exact (List.length_filter_le _ _).trans h.size
    · exact h.apart q r v w ((read q v).mp hq).2 ((read r w).mp hr).2
    · simp only [read, Plant.occ_deleteVol hx, and_assoc, exists_and_left]
      rw [← h.occ]
      split
      · rename_i hc; simp [hc.2, eq_comm]
      · rename_i hc
        refine ⟨fun e => ⟨?_, e⟩, And.right⟩
        rintro rfl
        obtain ⟨v, hq, hl⟩ := (h.occ c q).mp e
        obtain rfl := Option.some.inj (hx.symm.trans hq)
        exact hc ⟨hl, e⟩
    · simp only [read, Plant.homeOf_deleteVol hx, and_assoc, exists_and_left]
      rw [← h.home]
      split
      · rename_i hc
        have hs : (x.cell c).homeOf = some s := (h.home c s).mpr ⟨u, hx, hc⟩
        simp [hs, eq_comm]
      · rename_i hc
        refine ⟨fun e => ⟨?_, e⟩, And.right⟩
        rintro rfl
        obtain ⟨v, hq, hl⟩ := (h.home c q).mp e
        obtain rfl := Option.some.inj (hx.symm.trans hq)
        exact hc hl
    · exact h.marks q v ((read q v).mp hq).2
    · simp only [hp, List.mem_filter, read, and_assoc, exists_and_left, decide_not, h.scratch]
      simp [and_comm]

/-- A new visitor at OUTSIDE, in a table that has room (R8, R9). -/
theorem Plant.Agree.putVisitor {x : Plant} (h : x.Agree) {s : Serial} (t : TaskNo) (hs : x.vol? s = none)
    (hn : x.ltu.volumes.length < 4096) : (x.putVol (Volume.visitor s t)).Agree := by
  have read : ∀ q, (x.putVol (Volume.visitor s t)).vol? q = if q = s then some (Volume.visitor s t) else x.vol? q :=
    fun q => Plant.vol?_putVol _ q x
  have held : ∀ (p : Volume → Prop) q, ¬ p (Volume.visitor s t) →
      ((∃ v, (x.putVol (Volume.visitor s t)).vol? q = some v ∧ p v) ↔ ∃ v, x.vol? q = some v ∧ p v) := fun p q hp => by
    rw [read]
    split
    · rename_i e; simp [e, hs, hp]
    · rfl
  refine ⟨insertVolume_rising _ h.rising, ?_, fun q r v w hq hr e hl => ?_, h.cells, fun c q => ?_, fun c q => ?_,
    fun q v hq => ?_, h.once, fun q => ?_⟩
  · have := length_insertVolume (Volume.visitor s t) h.rising
    rw [Plant.putVol_ltu, this]
    split <;> omega
  · have seen : ∀ q v, (x.putVol (Volume.visitor s t)).vol? q = some v → v.loc.shared = false → x.vol? q = some v := by
      intro q v hq hl
      rw [read] at hq
      split at hq
      · obtain rfl := Option.some.inj hq; simp [Volume.visitor, Location.shared] at hl
      · exact hq
    exact h.apart q r v w (seen q v hq hl) (seen r w hr (e ▸ hl)) e hl
  · rw [held _ _ (by simp [Volume.visitor])]; exact h.occ c q
  · rw [held _ _ (by simp [Volume.visitor])]; exact h.home c q
  · rw [read] at hq
    split at hq
    · obtain rfl := Option.some.inj hq; exact ⟨rfl, by simp [Volume.visitor]⟩
    · exact h.marks q v hq
  · rw [held _ _ (by simp [Volume.visitor])]; exact h.scratch q

theorem mem_joinPool (s q : Serial) (l : List Serial) : q ∈ joinPool s l ↔ q = s ∨ q ∈ l := by
  unfold joinPool
  split
  · rename_i h
    exact ⟨.inr, by rintro (rfl | h'); exacts [h, h']⟩
  · simp [or_comm]

theorem nodup_joinPool (s : Serial) {l : List Serial} (h : l.Nodup) : (joinPool s l).Nodup := by
  unfold joinPool
  split
  · exact h
  · exact h.append (List.nodup_singleton s) (List.disjoint_singleton.mpr ‹s ∉ l›)

theorem Plant.mem_followScratch (s q : Serial) (b : Bool) (x : Plant) :
    q ∈ (x.followScratch s b).ltu.pool ↔ if q = s then b = true else q ∈ x.ltu.pool := by
  unfold Plant.followScratch
  cases b <;> by_cases hq : q = s <;> simp [mem_joinPool, hq]

theorem Plant.nodup_followScratch {x : Plant} (h : x.ltu.pool.Nodup) (s : Serial) (b : Bool) :
    (x.followScratch s b).ltu.pool.Nodup := by
  unfold Plant.followScratch
  cases b
  · simpa using h.filter _
  · simpa using nodup_joinPool s h

@[simp] theorem Plant.followScratch_volumes (s : Serial) (b : Bool) (x : Plant) :
    (x.followScratch s b).ltu.volumes = x.ltu.volumes := by
  unfold Plant.followScratch; split <;> rfl

@[simp] theorem Plant.followScratch_cells (s : Serial) (b : Bool) (x : Plant) :
    (x.followScratch s b).ltu.cells = x.ltu.cells := by
  unfold Plant.followScratch; split <;> rfl

/-- The flags of a record changed, the pool following SCRATCH (R13, R22). -/
theorem Plant.Agree.flag {x : Plant} (h : x.Agree) {s : Serial} {v : Volume} (hx : x.vol? s = some v)
    {f : Volume → Volume}
    (hf : ∀ v, (f v).serial = v.serial ∧ (f v).home = v.home ∧ (f v).loc = v.loc ∧ (f v).cls = v.cls
      ∧ (f v).misfiled = v.misfiled ∧ (f v).refilePending = v.refilePending) :
    ((x.updVol s f).followScratch s (f v).scratch).Agree := by
  have read : ∀ q, ((x.updVol s f).followScratch s (f v).scratch).vol? q
      = if q = s then some (f v) else x.vol? q := fun q => by
    rw [Plant.vol?_congr (Plant.followScratch_volumes _ _ _), Plant.vol?_updVol fun v => (hf v).1, hx]; rfl
  have cell : ∀ c, ((x.updVol s f).followScratch s (f v).scratch).cell c = x.cell c :=
    fun c => Plant.cell_congr (by simp) c
  have held : ∀ (p : Volume → Prop) q, (p (f v) ↔ p v) →
      ((∃ w, ((x.updVol s f).followScratch s (f v).scratch).vol? q = some w ∧ p w) ↔ ∃ w, x.vol? q = some w ∧ p w) :=
    fun p q hp => by
      rw [read]
      split
      · rename_i e; simp [e, hx, hp]
      · rfl
  obtain ⟨hs, hh, hl, hc, hm, hr⟩ := hf v
  have place : ∀ q w, ((x.updVol s f).followScratch s (f v).scratch).vol? q = some w →
      ∃ u, x.vol? q = some u ∧ w.loc = u.loc := fun q w hq => by
    rw [read] at hq
    split at hq
    · obtain rfl := Option.some.inj hq
      exact ⟨v, by rwa [‹q = s›], hl⟩
    · exact ⟨w, hq, rfl⟩
  refine ⟨?_, ?_, fun q r w u hq hr e hw => ?_, ?_, fun c q => ?_, fun c q => ?_, fun q w hq => ?_,
    Plant.nodup_followScratch (by simpa using h.once) _ _, fun q => ?_⟩
  · rw [Plant.followScratch_volumes, Plant.updVol_ltu, List.pairwise_map]
    refine h.rising.imp fun {a b} hab => ?_
    have fs := fun v => (hf v).1
    split <;> split <;> simpa [fs] using hab
  · simpa using h.size
  · obtain ⟨w', hw', ew⟩ := place q w hq
    obtain ⟨u', hu', eu⟩ := place r u hr
    exact h.apart q r w' u' hw' hu' (by rw [← ew, ← eu, e]) (ew ▸ hw)
  · simpa using h.cells
  · rw [cell, held _ _ (by rw [hl])]; exact h.occ c q
  · rw [cell, held _ _ (by rw [hh])]; exact h.home c q
  · rw [read] at hq
    split at hq
    · obtain rfl := Option.some.inj hq
      obtain ⟨m1, m2⟩ := h.marks s v hx
      exact ⟨by rw [hm, m1, hl, Bool.eq_iff_iff, Volume.misfiledAt_iff, Volume.misfiledAt_iff, hc, hh], by rwa [hr, hm]⟩
    · exact h.marks q w hq
  · rw [Plant.mem_followScratch, read]
    split
    · simp
    · exact h.scratch q

/-! ### LOAD VOLUME on the tables (R10, R11) -/

/-- The record LOAD VOLUME gives, at its place before the command. -/
def VolumeLoad.record (f : VolumeFields) (l : VolumeLoad) (home : Option CellNo) (loc : Location) : Volume :=
  { serial := l.serial, cls := l.cls, home := home, loc := loc, ring := l.ring, scratch := f.flags.getLsbD 0,
    watch := f.flags.getLsbD 1, ringPull := f.flags.getLsbD 2, misfiled := false, worn := false,
    mounts := f.mounts.toNat, footage := f.footage.toNat, fails := f.fails.toNat, refilePending := false, bound := none }

@[simp] theorem VolumeLoad.record_serial (f : VolumeFields) (l : VolumeLoad) (home : Option CellNo) (loc : Location) :
    (l.record f home loc).serial = l.serial := rfl

@[simp] theorem Plant.cell_putVol (v : Volume) (c : CellNo) (x : Plant) : (x.putVol v).cell c = x.cell c := rfl

/-- The cell a record has as its home is home to none, or to a volume (R18). -/
def Plant.homing (home : Option CellNo) (q : Option Serial) (x : Plant) : Plant :=
  match home with
  | some c => x.setHomeOf c q
  | none => x

/-- What LOAD VOLUME writes in the library tables. -/
def Plant.loadTables (f : VolumeFields) (l : VolumeLoad) (home : Option CellNo) (x : Plant) : Plant :=
  let held := x.vol? l.serial
  let v := l.record f home ((held.map fun v : Volume => v.loc).getD .outside)
  (((((x.homing (held.bind fun v : Volume => v.home) none).homing home (some l.serial)).putVol v).moveVol l.serial
    l.loc).followScratch l.serial v.scratch)

@[simp] theorem Plant.homing_volumes (home : Option CellNo) (q : Option Serial) (x : Plant) :
    (x.homing home q).ltu.volumes = x.ltu.volumes := by unfold Plant.homing; split <;> rfl

@[simp] theorem Plant.homing_pool (home : Option CellNo) (q : Option Serial) (x : Plant) :
    (x.homing home q).ltu.pool = x.ltu.pool := by unfold Plant.homing; split <;> rfl

theorem Plant.homing_cellsOk {x : Plant} (h : cellsOk x.ltu.cells) (home : Option CellNo) (q : Option Serial) :
    cellsOk (x.homing home q).ltu.cells := by
  unfold Plant.homing
  split
  · simpa using writeCell_ok _ h
  · exact h

theorem Plant.cell_homing (home : Option CellNo) (q : Option Serial) (c : CellNo) (x : Plant) :
    ((x.homing home q).cell c).occ = (x.cell c).occ
      ∧ ((x.homing home q).cell c).homeOf = if home = some c then q else (x.cell c).homeOf := by
  cases home with
  | none => exact ⟨rfl, rfl⟩
  | some d =>
    simp only [Plant.homing, Plant.cell_setHomeOf, Option.some.injEq, @eq_comm _ d c]
    split <;> simp [*]

section Load
variable (f : VolumeFields) (l : VolumeLoad) (home : Option CellNo) (x : Plant)

/-- The record LOAD VOLUME leaves. -/
def VolumeLoad.placed : Volume := (l.record f home l.loc).at_ l.loc

theorem Plant.vol?_loadTables (q : Serial) :
    (x.loadTables f l home).vol? q
      = if q = l.serial then some (l.placed f home) else (x.vol? q).map (·.evicted (some l.serial) l.loc) := by
  unfold Plant.loadTables
  simp only
  rw [Plant.vol?_congr (Plant.followScratch_volumes _ _ _),
    Plant.vol?_moveVol (by rw [Plant.vol?_putVol]; exact if_pos rfl), Plant.vol?_putVol, VolumeLoad.record_serial]
  split
  · simp [VolumeLoad.record, Volume.moved, VolumeLoad.placed, Volume.at_, Volume.misfiledAt]
  · rename_i hs
    rw [Plant.vol?_congr (x := x) (by simp)]
    cases hq : x.vol? q with
    | none => rfl
    | some v => simp [Volume.moved, Plant.vol?_serial hq, hs]

theorem Plant.occ_loadTables (c : CellNo) :
    ((x.loadTables f l home).cell c).occ = if l.loc = .cell c then .occupied l.serial
      else if x.volLoc l.serial = some (.cell c) ∧ (x.cell c).occ = .occupied l.serial then .empty
      else (x.cell c).occ := by
  unfold Plant.loadTables
  simp only
  rw [Plant.cell_congr (Plant.followScratch_cells _ _ _),
    Plant.occ_moveVol (by rw [Plant.vol?_putVol]; exact if_pos rfl)]
  simp only [Plant.cell_putVol, Plant.cell_homing]
  cases hq : x.vol? l.serial <;> simp [VolumeLoad.record, Plant.volLoc, hq]

theorem Plant.homeOf_loadTables (c : CellNo) :
    ((x.loadTables f l home).cell c).homeOf = if home = some c then some l.serial
      else if ((x.vol? l.serial).bind fun v : Volume => v.home) = some c then none else (x.cell c).homeOf := by
  unfold Plant.loadTables
  simp only
  rw [Plant.cell_congr (Plant.followScratch_cells _ _ _), Plant.homeOf_moveVol,
    Plant.cell_putVol, (Plant.cell_homing _ _ _ _).2, (Plant.cell_homing _ _ _ _).2]

theorem Plant.mem_loadTables_pool (q : Serial) :
    q ∈ (x.loadTables f l home).ltu.pool ↔ if q = l.serial then f.flags.getLsbD 0 = true else q ∈ x.ltu.pool := by
  unfold Plant.loadTables
  simp only
  rw [Plant.mem_followScratch]
  simp [VolumeLoad.record]

end Load

/-- LOAD VOLUME leaves the tables in agreement, the home given being home to no other volume, and room for a new record. -/
theorem Plant.Agree.loadTables {x : Plant} (h : x.Agree) (f : VolumeFields) {l : VolumeLoad} {home : Option CellNo}
    (hh : ∀ c q, home = some c → (x.cell c).homeOf = some q → q = l.serial)
    (hn : x.vol? l.serial = none → x.ltu.volumes.length < 4096) : (x.loadTables f l home).Agree := by
  have read := Plant.vol?_loadTables f l home x
  have loc : ∀ q v, (x.loadTables f l home).vol? q = some v → v.loc.shared = false →
      if q = l.serial then v.loc = l.loc else v.loc ≠ l.loc ∧ ∃ u, x.vol? q = some u ∧ u.loc = v.loc := by
    intro q v hq hv
    rw [read] at hq
    split at hq <;> rename_i hs
    · obtain rfl := Option.some.inj hq; exact (if_pos hs).mpr rfl
    · rw [if_neg hs]
      obtain ⟨u, hu, rfl⟩ := Option.map_eq_some_iff.mp hq
      obtain ⟨h1, h2⟩ := (Volume.evicted_loc_iff hv).mp rfl
      refine ⟨fun e => hs ?_, u, hu, h1⟩
      rw [← Plant.vol?_serial hu]
      exact Option.some.inj (h2 e)
  refine ⟨?_, ?_, fun q r v w hq hr e hl => ?_, ?_, fun c q => ?_, fun c q => ?_, fun q v hq => ?_, ?_, fun q => ?_⟩
  · simp only [Plant.loadTables, Plant.followScratch_volumes]
    rw [Plant.moveVol_volumes (by rw [Plant.vol?_putVol]; exact if_pos rfl), List.pairwise_map]
    simpa using insertVolume_rising _ h.rising
  · simp only [Plant.loadTables, Plant.followScratch_volumes]
    rw [Plant.moveVol_volumes (by rw [Plant.vol?_putVol]; exact if_pos rfl), List.length_map]
    simp only [Plant.putVol_ltu, Plant.homing_volumes]
    rw [length_insertVolume _ h.rising]
    split
    · rename_i hv; exact hn hv
    · exact h.size
  · have hv := loc q v hq hl
    have hw := loc r w hr (e ▸ hl)
    split at hv <;> split at hw
    · rw [‹q = _›, ‹r = _›]
    · exact absurd (e.symm.trans hv) hw.1
    · exact absurd (e.trans hw) hv.1
    · obtain ⟨-, u, hu, eu⟩ := hv
      obtain ⟨-, u', hu', eu'⟩ := hw
      exact h.apart q r u u' hu hu' (by rw [eu, eu', e]) (eu ▸ hl)
  · simp only [Plant.loadTables, Plant.followScratch_cells]
    exact Plant.moveVol_cellsOk (x := Plant.putVol _ _) (Plant.homing_cellsOk
        (Plant.homing_cellsOk h.cells _ _) _ _) _ _
  · rw [Plant.occ_loadTables, read]
    by_cases hq : q = l.serial
    · subst hq
      have hx : (x.cell c).occ = .occupied l.serial ↔ x.volLoc l.serial = some (.cell c) := by
        rw [h.occ, Plant.volLoc, Option.map_eq_some_iff]
      simp only [if_true, Option.some.injEq, exists_eq_left']
      have hp : (l.placed f home).loc = l.loc := rfl
      rw [hp]
      split
      · simp [*]
      · split
        · simp [*]
        · rename_i h1 h2
          rw [hx] at h2 ⊢
          simpa [h1] using h2
    · simp only [if_neg hq, Option.map_eq_some_iff, exists_exists_and_eq_and]
      have ho : (∃ v, x.vol? q = some v ∧ (v.evicted (some l.serial) l.loc).loc = .cell c)
          ↔ (x.cell c).occ = .occupied q ∧ l.loc ≠ .cell c := by
        rw [h.occ, ← exists_and_right]
        refine exists_congr fun v => ?_
        rw [and_assoc]
        refine and_congr_right fun hv => ?_
        rw [Volume.evicted_loc_iff (by rfl), Plant.vol?_serial hv]
        simp [hq, eq_comm]
      rw [ho]
      split
      · rename_i hl; simp [hl, Ne.symm hq]
      · rename_i hl
        split
        · rename_i hc; simp [hc.2, Ne.symm hq]
        · simp [hl]
  · rw [Plant.homeOf_loadTables, read]
    have hx := h.home c q
    by_cases hq : q = l.serial
    · subst hq
      simp only [if_true, Option.some.injEq, exists_eq_left']
      have hp : (l.placed f home).home = home := rfl
      rw [hp]
      split
      · simp [*]
      · split
        · simp [*]
        · rename_i h1 h2
          simpa [h1, hx, Option.bind_eq_some_iff] using h2
    · simp only [if_neg hq, Option.map_eq_some_iff, exists_exists_and_eq_and, Volume.evicted_home]
      rw [← hx]
      split
      · rename_i hc
        simp only [Option.some.injEq, Ne.symm hq, false_iff]
        exact fun e => hq (hh c q hc e)
      · split
        · rename_i hb
          obtain ⟨u, hu, hc⟩ := Option.bind_eq_some_iff.mp hb
          have : (x.cell c).homeOf = some l.serial := (h.home c _).mpr ⟨u, hu, hc⟩
          simp [this, Ne.symm hq]
        · rfl
  · rw [read] at hq
    split at hq
    · obtain rfl := Option.some.inj hq; exact Volume.at_marked _ _
    · obtain ⟨u, hu, rfl⟩ := Option.map_eq_some_iff.mp hq
      exact Volume.evicted_marked (h.marks q u hu)
  · simp only [Plant.loadTables]
    exact Plant.nodup_followScratch (by simpa using h.once) _ _
  · rw [Plant.mem_loadTables_pool, read]
    split
    · simp [VolumeLoad.placed, VolumeLoad.record, Volume.at_]
    · simp only [Option.map_eq_some_iff, exists_exists_and_eq_and, Volume.evicted_scratch]
      exact h.scratch q

/-! ### A warm restart and power-on on the tables (R25, R26) -/

/-- A cell's occupancy after a warm restart: a reservation is given up. -/
def Occ.restarted : Occ → Occ
  | .reserved _ _ => .empty
  | o => o

theorem Occ.restarted_occupied (o : Occ) (q : Serial) : o.restarted = .occupied q ↔ o = .occupied q := by
  cases o <;> simp [Occ.restarted]

theorem CellRec.restarted_cases (r : CellRec) :
    (r.restarted = some { r with occ := r.occ.restarted }) ∨
        (r.restarted = none ∧ r.occ.restarted = .empty ∧ r.homeOf = none) := by
  obtain ⟨n, o, h⟩ := r
  cases o <;> simp [CellRec.restarted, Occ.restarted]
  by_cases hh : h = none <;> simp [hh]

theorem CellRec.restarted_num {r q : CellRec} (h : r.restarted = some q) : q.num = r.num := by
  rcases r.restarted_cases with e | ⟨e, -⟩ <;> rw [e] at h
  · obtain rfl := Option.some.inj h; rfl
  · cases h

/-- A cell after a warm restart, by its number. -/
theorem Plant.cell_restarted {x y : Plant} (h : x.ltu.cells.Pairwise (fun r q => r.num < q.num))
    (hy : y.ltu.cells = x.ltu.cells.filterMap CellRec.restarted) (c : CellNo) :
    (y.cell c).occ = (x.cell c).occ.restarted ∧ (y.cell c).homeOf = (x.cell c).homeOf := by
  unfold Plant.cell
  rw [hy]
  clear hy
  generalize x.ltu.cells = l at h
  induction l with
  | nil => exact ⟨rfl, rfl⟩
  | cons r rs ih =>
    obtain ⟨hr, hs⟩ := List.pairwise_cons.mp h
    have ih := ih hs
    by_cases hc : r.num = c
    · rcases r.restarted_cases with e | ⟨e, ho, hh⟩
      · simp [e, hc]
      · have hn : (rs.filterMap CellRec.restarted).find? (fun q => q.num = c) = none := by
          refine List.find?_eq_none.mpr fun q hq => ?_
          obtain ⟨p, hp, hpq⟩ := List.mem_filterMap.mp hq
          have hne : q.num ≠ c := by rw [CellRec.restarted_num hpq, ← hc]; exact (hr p hp).ne'
          simpa using hne
        simp only [List.filterMap_cons, e, hn]
        simp [hc, ho, hh]
    · rw [List.find?_cons_of_neg (by simpa using hc)]
      cases e : r.restarted with
      | none => simpa [List.filterMap_cons, e] using ih
      | some q =>
        have hq : q.num ≠ c := by rw [CellRec.restarted_num e]; exact hc
        simp only [List.filterMap_cons, e]
        rw [List.find?_cons_of_neg (by simpa using hq)]
        exact ih

theorem cellsOk_restarted {l : List CellRec} (h : cellsOk l) : cellsOk (l.filterMap CellRec.restarted) := by
  constructor
  · refine h.1.filterMap _ fun a b hab p hp q hq => ?_
    rwa [CellRec.restarted_num hp, CellRec.restarted_num hq]
  · intro q hq
    obtain ⟨r, hr, e⟩ := List.mem_filterMap.mp hq
    have hk := h.2 r hr
    obtain ⟨n, o, ho⟩ := r
    cases o with
    | reserved w t =>
      simp only [CellRec.restarted] at e
      split at e
      · cases e
      · obtain rfl := Option.some.inj e
        exact fun h => ‹¬ ho = none› h.2
    | _ => obtain rfl := Option.some.inj e; exact hk

theorem Volume.restarted_cases (v : Volume) :
    (((∃ a, v.loc = .gripper a) ∨ ∃ r, v.loc = .handoff r) ∧ v.restarted = { v with bound := none }.at_ .unknown)
      ∨ ((∃ n, v.loc = .entry n) ∧ v.restarted = { v with bound := none }.at_ .outside)
      ∨ ((∀ a, v.loc ≠ .gripper a) ∧ (∀ r, v.loc ≠ .handoff r) ∧ (∀ n, v.loc ≠ .entry n)
        ∧ v.restarted = { v with bound := none }) := by
  cases h : v.loc <;> simp [Volume.restarted, h]

theorem Volume.restarted_keeps (v : Volume) :
    v.restarted.serial = v.serial ∧ v.restarted.home = v.home ∧ v.restarted.scratch = v.scratch
      ∧ (v.marked → v.restarted.marked) := by
  rcases v.restarted_cases with ⟨-, e⟩ | ⟨-, e⟩ | ⟨-, -, -, e⟩ <;> rw [e]
  · exact ⟨rfl, rfl, rfl, fun _ => Volume.at_marked _ _⟩
  · exact ⟨rfl, rfl, rfl, fun _ => Volume.at_marked _ _⟩
  · exact ⟨rfl, rfl, rfl, id⟩

theorem Volume.restarted_loc {v : Volume} (h : v.restarted.loc.shared = false) : v.restarted.loc = v.loc := by
  rcases v.restarted_cases with ⟨-, e⟩ | ⟨-, e⟩ |
      ⟨-, -, -, e⟩ <;> rw [e] at h ⊢ <;> simp [Volume.at_, Location.shared] at h ⊢

theorem Volume.restarted_loc_cell (v : Volume) (c : CellNo) : v.restarted.loc = .cell c ↔ v.loc = .cell c := by
  rcases v.restarted_cases with ⟨(⟨a, ha⟩ | ⟨a, ha⟩), e⟩ | ⟨⟨a, ha⟩, e⟩ |
      ⟨-, -, -, e⟩ <;> rw [e] <;> simp [Volume.at_, *]

/-- A warm restart leaves the tables in agreement (R26). -/
theorem Plant.Agree.restarted {x y : Plant} (h : x.Agree) (hy : y.ltu = x.ltu.restarted) : y.Agree := by
  have hc : y.ltu.cells = x.ltu.cells.filterMap CellRec.restarted := by rw [hy]; rfl
  have cell := Plant.cell_restarted h.cells.1 hc
  refine h.of_map (f := Volume.restarted) (by rw [hy]; rfl) (fun v => v.restarted_keeps.1) (fun q v hq => ?_)
    (by rw [hy]; rfl) (hc ▸ cellsOk_restarted h.cells) (fun c => (cell c).2) (fun q r v w hq hr e hl => ?_)
        fun c q => ?_
  · obtain ⟨-, hh, hs, hm⟩ := v.restarted_keeps
    exact ⟨hh, hs, hm (h.marks q v hq)⟩
  · have hv := Volume.restarted_loc hl
    have hw := Volume.restarted_loc (e ▸ hl)
    exact h.apart q r v w hq hr (hv.symm.trans (e.trans hw)) (hv ▸ hl)
  · rw [(cell c).1, Occ.restarted_occupied, h.occ]
    simp only [Volume.restarted_loc_cell]

/-- The empty tables agree (R25). -/
theorem Plant.Agree.boot {x : Plant} (hx : x.ltu = Ltu.boot) : x.Agree := by
  have hv : x.ltu.volumes = [] := by rw [hx]; rfl
  have hp : x.ltu.pool = [] := by rw [hx]; rfl
  have none : ∀ q, x.vol? q = none := fun q => by simp [Plant.vol?, hv]
  have cell : ∀ c, x.cell c = { num := c, occ := .empty, homeOf := .none } := fun c => by simp [Plant.cell, hx, Ltu.boot]
  exact ⟨by simp [hv], by simp [hv], by simp [none], by rw [hx]; exact ⟨.nil, by simp [Ltu.boot]⟩, by simp [none, cell],
    by simp [none, cell], by simp [none], by simp [hp], by simp [hp, none]⟩

/-! ### Agreement as a property of the three tables -/

/-- The volume table, the cell map and the scratch pool. -/
structure Records where
  volumes : List Volume
  cells : List CellRec
  pool : List Serial

def Ltu.records (l : Ltu) : Records := { volumes := l.volumes, cells := l.cells, pool := l.pool }

/-- The tables agree, whatever else the plant holds. -/
def Records.agree (r : Records) : Prop :=
  ({ Plant.boot { c := [], m := [] } 0 with
    ltu := { Ltu.boot with volumes := r.volumes, cells := r.cells, pool := r.pool } } : Plant).Agree

theorem Plant.agree_iff (x : Plant) : x.Agree ↔ x.ltu.records.agree :=
  ⟨fun h => h.of_tables rfl rfl rfl, fun h => h.of_tables rfl rfl rfl⟩

@[simp] theorem Ltu.records_entry (l : Ltu) (v : Vector Slot 8) : Ltu.records { l with entry := v } = l.records := rfl

@[simp] theorem Ltu.records_service (l : Ltu) (v : Vector Slot 8) : Ltu.records
    { l with service := v } = l.records := rfl

end Sys2Proof.Machine
end

section
/-!
SUPPORT. What the plant's functions leave as it was: one frame lemma per function, which names the blocks (and, for those
that write rack slots, the tables' records) that it does not change.
-/
namespace Sys2Proof.Machine

/-! ### What the operations that touch no volume, no cell and no pool leave as it was -/

/-- A field that every step of a fold leaves as it was. -/
theorem foldl_keeps {α β γ : Type} (g : β → γ) {f : β → α → β} (hf : ∀ y a, g (f y a) = g y) (l : List α) (x : β) :
    g (l.foldl f x) = g x := by
  induction l generalizing x with
  | nil => rfl
  | cons a as ih => rw [List.foldl_cons, ih, hf]

@[simp] theorem Plant.setFlag_frame (e : Env) (f : EventFlag) (x : Plant) :
    (x.setFlag e f).ltu = x.ltu ∧ (x.setFlag e f).tcu = x.tcu ∧ (x.setFlag e f).mou = x.mou
      ∧ (x.setFlag e f).dru = x.dru ∧ (x.setFlag e f).pru = x.pru ∧ (x.setFlag e f).adu = x.adu := by
  unfold Plant.setFlag
  dsimp only
  split
  · refine ⟨?_, ?_, ?_, ?_, ?_, ?_⟩ <;> exact foldl_keeps _ (fun _ _ => by simp) _ _
  · simp

@[simp] theorem Plant.queueLeg_frame (e : Env) (l : Leg) (x : Plant) :
    (x.queueLeg e l).ltu = x.ltu ∧ (x.queueLeg e l).tcu = x.tcu ∧ (x.queueLeg e l).dru = x.dru
      ∧ (x.queueLeg e l).pru = x.pru ∧ (x.queueLeg e l).adu = x.adu ∧ (x.queueLeg e l).mgu = x.mgu
      ∧ (x.queueLeg e l).out = x.out := by
  simp [Plant.queueLeg]

@[simp] theorem Plant.endLeg_frame (e : Env) (a : Acc) (x : Plant) :
    (x.endLeg e a).ltu = x.ltu ∧ (x.endLeg e a).tcu = x.tcu ∧ (x.endLeg e a).dru = x.dru
      ∧ (x.endLeg e a).pru = x.pru ∧ (x.endLeg e a).adu = x.adu ∧ (x.endLeg e a).mgu = x.mgu
      ∧ (x.endLeg e a).out = x.out := by
  simp [Plant.endLeg]

@[simp] theorem Plant.judgeView_frame (e : Env) (c : Console) (x : Plant) :
    (x.judgeView e c).ltu = x.ltu ∧ (x.judgeView e c).tcu = x.tcu ∧ (x.judgeView e c).mou = x.mou
      ∧ (x.judgeView e c).dru = x.dru ∧ (x.judgeView e c).adu = x.adu ∧ (x.judgeView e c).mgu = x.mgu := by
  unfold Plant.judgeView
  dsimp only
  (repeat' split) <;> simp

@[simp] theorem Plant.judgeViews_frame (e : Env) (x : Plant) :
    (x.judgeViews e).ltu = x.ltu ∧ (x.judgeViews e).tcu = x.tcu ∧ (x.judgeViews e).mou = x.mou
      ∧ (x.judgeViews e).dru = x.dru ∧ (x.judgeViews e).adu = x.adu ∧ (x.judgeViews e).mgu = x.mgu := by
  unfold Plant.judgeViews; (repeat' split) <;> simp

@[simp] theorem Plant.openPrompt_frame (e : Env) (r : PromptRequest) (x : Plant) :
    (x.openPrompt e r).ltu = x.ltu ∧ (x.openPrompt e r).tcu = x.tcu ∧ (x.openPrompt e r).mou = x.mou
      ∧ (x.openPrompt e r).dru = x.dru ∧ (x.openPrompt e r).adu = x.adu ∧ (x.openPrompt e r).mgu = x.mgu := by
  simp [Plant.openPrompt]

@[simp] theorem Plant.joinBacklog_frame (e : Env) (r : PromptRequest) (x : Plant) :
    (x.joinBacklog e r).ltu = x.ltu ∧ (x.joinBacklog e r).tcu = x.tcu ∧ (x.joinBacklog e r).mou = x.mou
      ∧ (x.joinBacklog e r).dru = x.dru ∧ (x.joinBacklog e r).adu = x.adu := by
  simp [Plant.joinBacklog]

@[simp] theorem Plant.place_frame (e : Env) (r : PromptRequest) (x : Plant) :
    (x.place e r).ltu = x.ltu ∧ (x.place e r).tcu = x.tcu ∧ (x.place e r).mou = x.mou ∧ (x.place e r).dru = x.dru
      ∧ (x.place e r).adu = x.adu := by
  unfold Plant.place
  dsimp only
  (repeat' split) <;> simp

@[simp] theorem Plant.request_frame (e : Env) (k : PromptKind) (p : Params) (o : PromptOwner) (x : Plant) :
    (x.request e k p o).1.ltu = x.ltu ∧ (x.request e k p o).1.tcu = x.tcu ∧ (x.request e k p o).1.mou = x.mou
      ∧ (x.request e k p o).1.dru = x.dru ∧ (x.request e k p o).1.adu = x.adu := by
  unfold Plant.request; (repeat' split) <;> simp

@[simp] theorem Plant.ask_frame (e : Env) (k : PromptKind) (p : Params) (o : PromptOwner) (x : Plant) :
    (x.ask e k p o).ltu = x.ltu ∧ (x.ask e k p o).tcu = x.tcu ∧ (x.ask e k p o).mou = x.mou
      ∧ (x.ask e k p o).dru = x.dru ∧ (x.ask e k p o).adu = x.adu := by
  exact Plant.request_frame e k p o x

@[simp] theorem Plant.removePrompt_frame (n : Nat) (x : Plant) :
    (x.removePrompt n).ltu = x.ltu ∧ (x.removePrompt n).tcu = x.tcu ∧ (x.removePrompt n).mou = x.mou
      ∧ (x.removePrompt n).dru = x.dru ∧ (x.removePrompt n).adu = x.adu ∧ (x.removePrompt n).mgu = x.mgu
      ∧ (x.removePrompt n).out = x.out := by
  simp [Plant.removePrompt]

@[simp] theorem Plant.openHead_frame (e : Env) (x : Plant) :
    (x.openHead e).ltu = x.ltu ∧ (x.openHead e).tcu = x.tcu ∧ (x.openHead e).mou = x.mou
      ∧ (x.openHead e).dru = x.dru ∧ (x.openHead e).adu = x.adu ∧ (x.openHead e).mgu = x.mgu := by
  unfold Plant.openHead; (repeat' split) <;> simp

@[simp] theorem Plant.takeLater_frame (e : Env) (x : Plant) :
    (x.takeLater e).ltu = x.ltu ∧ (x.takeLater e).tcu = x.tcu ∧ (x.takeLater e).mou = x.mou
      ∧ (x.takeLater e).dru = x.dru ∧ (x.takeLater e).adu = x.adu := by
  unfold Plant.takeLater
  refine ⟨?_, ?_, ?_, ?_, ?_⟩ <;> exact foldl_keeps _ (fun _ _ => by simp) _ _

@[simp] theorem Plant.withdraw_frame (e : Env) (n : Nat) (x : Plant) :
    (x.withdraw e n).ltu = x.ltu ∧ (x.withdraw e n).tcu = x.tcu ∧ (x.withdraw e n).mou = x.mou
      ∧ (x.withdraw e n).dru = x.dru ∧ (x.withdraw e n).adu = x.adu ∧ (x.withdraw e n).mgu = x.mgu := by
  unfold Plant.withdraw; (repeat' split) <;> simp

@[simp] theorem Plant.cleanDue_frame (e : Env) (d : DriveNo) (x : Plant) :
    (x.cleanDue e d).ltu = x.ltu ∧ (x.cleanDue e d).tcu = x.tcu ∧ (x.cleanDue e d).mou = x.mou
      ∧ (x.cleanDue e d).adu = x.adu := by
  simp [Plant.cleanDue]

@[simp] theorem Plant.takeUp_frame (e : Env) (d : DriveNo) (x : Plant) :
    (x.takeUp e d).ltu = x.ltu ∧ (x.takeUp e d).tcu = x.tcu ∧ (x.takeUp e d).mou = x.mou
      ∧ (x.takeUp e d).adu = x.adu := by
  unfold Plant.takeUp
  dsimp only
  (repeat' split) <;> simp

@[simp] theorem Plant.driveCommand_frame (d : DriveNo) (c : DriveCmd) (x : Plant) :
    (x.driveCommand d c).ltu = x.ltu ∧ (x.driveCommand d c).tcu = x.tcu ∧ (x.driveCommand d c).mou = x.mou
      ∧ (x.driveCommand d c).dru = x.dru ∧ (x.driveCommand d c).pru = x.pru ∧ (x.driveCommand d c).adu = x.adu
      ∧ (x.driveCommand d c).mgu = x.mgu := by
  simp [Plant.driveCommand]

@[simp] theorem Plant.interim_frame (t : TaskNo) (st : Status) (x : Plant) :
    (x.interim t st).ltu = x.ltu ∧ (x.interim t st).tcu = x.tcu ∧ (x.interim t st).mou = x.mou
      ∧ (x.interim t st).dru = x.dru ∧ (x.interim t st).pru = x.pru ∧ (x.interim t st).adu = x.adu
      ∧ (x.interim t st).mgu = x.mgu := by
  unfold Plant.interim; (repeat' split) <;> simp

@[simp] theorem Plant.answer_frame (t : TaskNo) (st : Status) (x : Plant) :
    (x.answer t st).ltu = x.ltu ∧ (x.answer t st).mou = x.mou ∧ (x.answer t st).dru = x.dru
      ∧ (x.answer t st).pru = x.pru ∧ (x.answer t st).adu = x.adu ∧ (x.answer t st).mgu = x.mgu := by
  unfold Plant.answer; (repeat' split) <;> simp

@[simp] theorem Plant.enterWaiting_frame (t : TaskNo) (r : WaitReason) (x : Plant) :
    (x.enterWaiting t r).ltu = x.ltu ∧ (x.enterWaiting t r).mou = x.mou ∧ (x.enterWaiting t r).dru = x.dru
      ∧ (x.enterWaiting t r).pru = x.pru ∧ (x.enterWaiting t r).adu = x.adu ∧ (x.enterWaiting t r).mgu = x.mgu := by
  unfold Plant.enterWaiting; (repeat' split) <;> simp

@[simp] theorem Plant.enterOpwait_frame (t : TaskNo) (n : Nat) (kd : PromptKind) (x : Plant) :
    (x.enterOpwait t n kd).ltu = x.ltu ∧ (x.enterOpwait t n kd).mou = x.mou ∧ (x.enterOpwait t n kd).dru = x.dru
      ∧ (x.enterOpwait t n kd).pru = x.pru ∧ (x.enterOpwait t n kd).adu = x.adu
      ∧ (x.enterOpwait t n kd).mgu = x.mgu := by
  unfold Plant.enterOpwait; (repeat' split) <;> simp

@[simp] theorem Plant.enterMoving_frame (t : TaskNo) (x : Plant) :
    (x.enterMoving t).ltu = x.ltu ∧ (x.enterMoving t).mou = x.mou ∧ (x.enterMoving t).dru = x.dru
      ∧ (x.enterMoving t).pru = x.pru ∧ (x.enterMoving t).adu = x.adu ∧ (x.enterMoving t).mgu = x.mgu := by
  unfold Plant.enterMoving; (repeat' split) <;> simp

@[simp] theorem Plant.tag_frame (t : TaskNo) (c : CondTag) (x : Plant) :
    (x.tag t c).ltu = x.ltu ∧ (x.tag t c).mou = x.mou ∧ (x.tag t c).dru = x.dru ∧ (x.tag t c).pru = x.pru
      ∧ (x.tag t c).adu = x.adu ∧ (x.tag t c).mgu = x.mgu ∧ (x.tag t c).out = x.out := by
  simp [Plant.tag]

@[simp] theorem Plant.taskPrompt_frame (e : Env) (t : TaskNo) (kd : PromptKind) (p : Params) (x : Plant) :
    (x.taskPrompt e t kd p).ltu = x.ltu ∧ (x.taskPrompt e t kd p).mou = x.mou ∧ (x.taskPrompt e t kd p).dru = x.dru
      ∧ (x.taskPrompt e t kd p).adu = x.adu := by
  unfold Plant.taskPrompt; simp

@[simp] theorem Plant.releaseHandoff_frame (t : TaskNo) (x : Plant) :
    (x.releaseHandoff t).ltu = x.ltu ∧ (x.releaseHandoff t).dru = x.dru ∧ (x.releaseHandoff t).pru = x.pru
      ∧ (x.releaseHandoff t).adu = x.adu ∧ (x.releaseHandoff t).mgu = x.mgu ∧ (x.releaseHandoff t).out = x.out := by
  unfold Plant.releaseHandoff; (repeat' split) <;> simp

@[simp] theorem Plant.releaseService_frame (t : TaskNo) (x : Plant) :
    (x.releaseService t).ltu.records = x.ltu.records ∧ (x.releaseService t).mou = x.mou
      ∧ (x.releaseService t).dru = x.dru ∧ (x.releaseService t).pru = x.pru ∧ (x.releaseService t).adu = x.adu
      ∧ (x.releaseService t).mgu = x.mgu ∧ (x.releaseService t).out = x.out := by
  unfold Plant.releaseService; (repeat' split) <;> simp

@[simp] theorem Plant.requestRecovery_frame (r : Request) (x : Plant) :
    (x.requestRecovery r).ltu = x.ltu ∧ (x.requestRecovery r).mou = x.mou ∧ (x.requestRecovery r).dru = x.dru
      ∧ (x.requestRecovery r).pru = x.pru ∧ (x.requestRecovery r).adu = x.adu ∧ (x.requestRecovery r).mgu = x.mgu
      ∧ (x.requestRecovery r).out = x.out := by
  unfold Plant.requestRecovery; (repeat' split) <;> simp

@[simp] theorem Plant.dropRequest_frame (r : Request) (x : Plant) :
    (x.dropRequest r).ltu = x.ltu ∧ (x.dropRequest r).mou = x.mou ∧ (x.dropRequest r).dru = x.dru
      ∧ (x.dropRequest r).pru = x.pru ∧ (x.dropRequest r).adu = x.adu ∧ (x.dropRequest r).mgu = x.mgu
      ∧ (x.dropRequest r).out = x.out := by
  simp [Plant.dropRequest]

@[simp] theorem Plant.dropLegs_frame (e : Env) (t : TaskNo) (x : Plant) :
    (x.dropLegs e t).ltu = x.ltu ∧ (x.dropLegs e t).tcu = x.tcu ∧ (x.dropLegs e t).dru = x.dru
      ∧ (x.dropLegs e t).pru = x.pru ∧ (x.dropLegs e t).adu = x.adu ∧ (x.dropLegs e t).mgu = x.mgu
      ∧ (x.dropLegs e t).out = x.out := by
  unfold Plant.dropLegs
  refine ⟨?_, ?_, ?_, ?_, ?_, ?_, ?_⟩ <;> exact (foldl_keeps _ (fun y a => by (repeat' split) <;> simp) _ _).trans rfl

@[simp] theorem Plant.supersede_frame (e : Env) (t : TaskNo) (x : Plant) :
    (x.supersede e t).ltu = x.ltu ∧ (x.supersede e t).tcu = x.tcu ∧ (x.supersede e t).dru = x.dru
      ∧ (x.supersede e t).pru = x.pru ∧ (x.supersede e t).adu = x.adu ∧ (x.supersede e t).mgu = x.mgu
      ∧ (x.supersede e t).out = x.out := by
  simp [Plant.supersede]

@[simp] theorem Plant.becomeWaiter_frame (e : Env) (t : TaskNo) (w : Work) (r : Waiter) (x : Plant) :
    (x.becomeWaiter e t w r).ltu = x.ltu ∧ (x.becomeWaiter e t w r).dru = x.dru
      ∧ (x.becomeWaiter e t w r).pru = x.pru ∧ (x.becomeWaiter e t w r).adu = x.adu
      ∧ (x.becomeWaiter e t w r).mgu = x.mgu ∧ (x.becomeWaiter e t w r).out = x.out := by
  simp [Plant.becomeWaiter]

@[simp] theorem Plant.waitService_frame (e : Env) (t : TaskNo) (w : Work) (x : Plant) :
    (x.waitService e t w).ltu = x.ltu ∧ (x.waitService e t w).dru = x.dru ∧ (x.waitService e t w).adu = x.adu := by
  unfold Plant.waitService
  dsimp only
  (repeat' split) <;> simp

@[simp] theorem Plant.secureService_frame (e : Env) (t : TaskNo) (w : Work) (x : Plant) :
    (x.secureService e t w).1.ltu.records = x.ltu.records ∧ (x.secureService e t w).1.dru = x.dru
      ∧ (x.secureService e t w).1.adu = x.adu := by
  unfold Plant.secureService; (repeat' split) <;> simp

@[simp] theorem Plant.followRackFull_frame (e : Env) (x : Plant) :
    (x.followRackFull e).ltu = x.ltu ∧ (x.followRackFull e).mou = x.mou ∧ (x.followRackFull e).dru = x.dru
      ∧ (x.followRackFull e).adu = x.adu ∧ (x.followRackFull e).mgu = x.mgu := by
  unfold Plant.followRackFull
  dsimp only
  (repeat' split) <;> simp

@[simp] theorem Plant.planFind_frame (e : Env) (t : TaskNo) (kd : PromptKind) (x : Plant) :
    (x.planFind e t kd).ltu = x.ltu ∧ (x.planFind e t kd).mou = x.mou ∧ (x.planFind e t kd).dru = x.dru
      ∧ (x.planFind e t kd).adu = x.adu := by
  unfold Plant.planFind; (repeat' split) <;> simp

@[simp] theorem Plant.legQueued_frame (t : TaskNo) (l : Leg) (x : Plant) :
    (x.legQueued t l).ltu = x.ltu ∧ (x.legQueued t l).mou = x.mou ∧ (x.legQueued t l).dru = x.dru
      ∧ (x.legQueued t l).pru = x.pru ∧ (x.legQueued t l).adu = x.adu ∧ (x.legQueued t l).mgu = x.mgu := by
  unfold Plant.legQueued; (repeat' split) <;> simp

@[simp] theorem Plant.queueTaskLeg_frame (e : Env) (t : TaskNo) (w : Work) (src : Location)
    (dst onward : Option Location) (capA capB : Bool) (x : Plant) :
    (x.queueTaskLeg e t w src dst onward capA capB).ltu = x.ltu
      ∧ (x.queueTaskLeg e t w src dst onward capA capB).dru = x.dru
      ∧ (x.queueTaskLeg e t w src dst onward capA capB).pru = x.pru
      ∧ (x.queueTaskLeg e t w src dst onward capA capB).adu = x.adu
      ∧ (x.queueTaskLeg e t w src dst onward capA capB).mgu = x.mgu := by
  unfold Plant.queueTaskLeg; (repeat' split) <;> simp

@[simp] theorem Plant.route_frame (e : Env) (t : TaskNo) (w : Work) (src dst : Location) (x : Plant) :
    (x.route e t w src dst).ltu = x.ltu ∧ (x.route e t w src dst).dru = x.dru ∧ (x.route e t w src dst).pru = x.pru
      ∧ (x.route e t w src dst).adu = x.adu ∧ (x.route e t w src dst).mgu = x.mgu := by
  unfold Plant.route
  dsimp only
  (repeat' split) <;> simp

/-- The movement of a reel that stands at `src`, once its task has been set to it. -/
def Plant.moveFrom (e : Env) (t : TaskNo) (w : Work) (k : Task) (src : Location) (x : Plant) : Plant :=
  let x := x.updTask t ({ · with holding := match src with | .gripper a => some a | _ => none })
  let fromEntry : Bool := match src with | .entry _ => true | _ => false
  let secured := if fromEntry then x.secureService e t w else (x, none)
  match w with
  | .toDrive =>
    match k.drive with
    | none => x
    | some d =>
      if fromEntry ∧ secured.2 = none then secured.1
      else if (capable .A src (.drive d) || capable .B src (.drive d)) ∧ (x.drive d).state ≠ .reserved then
        secured.1.enterWaiting t .driveFree
      else secured.1.route e t w src (.drive d)
  | .store =>
    match k.cell with
    | none => x
    | some c => if fromEntry ∧ secured.2 = none then secured.1 else secured.1.route e t w src (.cell c)
  | .ringStop | .ringPull | .remove | .returnSlot | .foreign | .handover _ =>
    match x.secureService e t w with
    | (y, some n) => y.route e t w src (.service n)
    | (y, none) => y
  | .identify =>
    match x.secureService e t w with
    | (y, some _) => y.queueTaskLeg e t w src none none (src.within .A) (src.within .B)
    | (y, none) => y
  | .carry => x

/-- `planMove` is `moveFrom` where the reel stands at a place that has a bay, on the task's own drive if on one. -/
theorem Plant.planMove_eq (e : Env) (t : TaskNo) (w : Work) (x : Plant) :
    x.planMove e t w =
      let y := x.updTask t ({ · with work := some w, waiter := none, faulted := none })
      match y.task? t with
      | none => y
      | some k =>
        if y.onOtherDrive t k then (y.updTask t ({ · with holding := none })).enterMoving t
        else
          match y.reelAt k with
          | none => y
          | some .outside => y.planFind e t .fetch
          | some .unknown => y.planFind e t .locate
          | some src => y.moveFrom e t w k src := by
  unfold Plant.planMove Plant.moveFrom
  rfl

/-- What a movement leaves as it was. -/
def Plant.MovesNone (x y : Plant) : Prop :=
  y.ltu.records = x.ltu.records ∧ y.dru = x.dru ∧ y.adu = x.adu

theorem Plant.MovesNone.trans {x y z : Plant} (h : x.MovesNone y) (g : y.MovesNone z) : x.MovesNone z :=
  ⟨g.1.trans h.1, g.2.1.trans h.2.1, g.2.2.trans h.2.2⟩

theorem Plant.secureService_movesNone (e : Env) (t : TaskNo) (w : Work) (x : Plant) :
    x.MovesNone (x.secureService e t w).1 := by simp [Plant.MovesNone]

theorem Plant.moveFrom_movesNone (e : Env) (t : TaskNo) (w : Work) (k : Task) (src : Location) (x : Plant) :
    x.MovesNone (x.moveFrom e t w k src) := by
  unfold Plant.moveFrom
  extract_lets z fromEntry secured
  have hz : x.MovesNone z := by simp [z, Plant.MovesNone]
  have hs : x.MovesNone secured.1 := by
    simp only [secured]
    split
    · exact hz.trans (Plant.secureService_movesNone e t w z)
    · exact hz
  have hsec := hz.trans (Plant.secureService_movesNone e t w z)
  have route : ∀ (y : Plant) (d : Location), x.MovesNone y → x.MovesNone (y.route e t w src d) := fun y d hy =>
    hy.trans (by simp [Plant.MovesNone])
  have slot : x.MovesNone (match z.secureService e t w with
      | (y, some n) => y.route e t w src (.service n)
      | (y, none) => y) := by
    split <;> rename_i h <;> rw [h] at hsec
    · exact route _ _ hsec
    · exact hsec
  cases w with
  | toDrive =>
    dsimp only
    split
    · exact hz
    · split
      · exact hs
      · split
        · exact hs.trans (by simp [Plant.MovesNone])
        · exact route _ _ hs
  | store =>
    dsimp only
    split
    · exact hz
    · split
      · exact hs
      · exact route _ _ hs
  | identify =>
    dsimp only
    split <;> rename_i h <;> rw [h] at hsec
    · exact hsec.trans (by simp [Plant.MovesNone])
    · exact hsec
  | carry => exact hz
  | _ => exact slot

@[simp] theorem Plant.planMove_frame (e : Env) (t : TaskNo) (w : Work) (x : Plant) :
    (x.planMove e t w).ltu.records = x.ltu.records ∧ (x.planMove e t w).dru = x.dru
      ∧ (x.planMove e t w).adu = x.adu := by
  rw [Plant.planMove_eq]
  extract_lets y
  have hy : x.MovesNone y := by simp [y, Plant.MovesNone]
  split
  · exact hy
  · split
    · exact hy.trans (by simp [Plant.MovesNone])
    · split
      · exact hy
      · exact hy.trans (by simp [Plant.MovesNone])
      · exact hy.trans (by simp [Plant.MovesNone])
      · exact hy.trans (Plant.moveFrom_movesNone e t w _ _ y)

@[simp] theorem Plant.adoptSlot_frame (t : TaskNo) (n : Fin 8) (x : Plant) :
    (x.adoptSlot t n).ltu.records = x.ltu.records ∧ (x.adoptSlot t n).mou = x.mou ∧ (x.adoptSlot t n).dru = x.dru
      ∧ (x.adoptSlot t n).pru = x.pru ∧ (x.adoptSlot t n).adu = x.adu ∧ (x.adoptSlot t n).mgu = x.mgu
      ∧ (x.adoptSlot t n).out = x.out := by
  unfold Plant.adoptSlot
  dsimp only
  (repeat' split) <;> simp

@[simp] theorem Plant.slotPrompt_frame (e : Env) (t : TaskNo) (kd : PromptKind) (n : Fin 8) (withDrive : Bool)
    (x : Plant) :
    (x.slotPrompt e t kd n withDrive).ltu = x.ltu ∧ (x.slotPrompt e t kd n withDrive).mou = x.mou
      ∧ (x.slotPrompt e t kd n withDrive).dru = x.dru ∧ (x.slotPrompt e t kd n withDrive).adu = x.adu := by
  unfold Plant.slotPrompt; (repeat' split) <;> simp

@[simp] theorem Plant.planRemove_frame (e : Env) (t : TaskNo) (x : Plant) :
    (x.planRemove e t).ltu.records = x.ltu.records ∧ (x.planRemove e t).dru = x.dru
      ∧ (x.planRemove e t).adu = x.adu := by
  unfold Plant.planRemove; (repeat' split) <;> simp

@[simp] theorem Plant.ringPrompt_frame (e : Env) (t : TaskNo) (n : Fin 8) (x : Plant) :
    (x.ringPrompt e t n).ltu = x.ltu ∧ (x.ringPrompt e t n).mou = x.mou ∧ (x.ringPrompt e t n).dru = x.dru
      ∧ (x.ringPrompt e t n).adu = x.adu := by
  simp [Plant.ringPrompt]

@[simp] theorem Plant.planMount_frame (e : Env) (t : TaskNo) (x : Plant) :
    (x.planMount e t).ltu.records = x.ltu.records ∧ (x.planMount e t).dru = x.dru
      ∧ (x.planMount e t).adu = x.adu := by
  unfold Plant.planMount
  dsimp only
  (repeat' split) <;> simp

@[simp] theorem Plant.planEject_frame (e : Env) (t : TaskNo) (x : Plant) :
    (x.planEject e t).ltu.records = x.ltu.records ∧ (x.planEject e t).dru = x.dru
      ∧ (x.planEject e t).adu = x.adu := by
  unfold Plant.planEject; (repeat' split) <;> simp

@[simp] theorem Plant.planReel_frame (e : Env) (t : TaskNo) (x : Plant) :
    (x.planReel e t).ltu.records = x.ltu.records ∧ (x.planReel e t).dru = x.dru ∧ (x.planReel e t).adu = x.adu := by
  unfold Plant.planReel; (repeat' split) <;> simp

@[simp] theorem Plant.unbindDrive_frame (t : TaskNo) (x : Plant) :
    (x.unbindDrive t).ltu = x.ltu ∧ (x.unbindDrive t).tcu = x.tcu ∧ (x.unbindDrive t).mou = x.mou
      ∧ (x.unbindDrive t).pru = x.pru ∧ (x.unbindDrive t).adu = x.adu ∧ (x.unbindDrive t).mgu = x.mgu
      ∧ (x.unbindDrive t).out = x.out := by
  unfold Plant.unbindDrive; (repeat' split) <;> simp

@[simp] theorem Plant.withdrawOwn_frame (e : Env) (t : TaskNo) (x : Plant) :
    (x.withdrawOwn e t).ltu = x.ltu ∧ (x.withdrawOwn e t).mou = x.mou ∧ (x.withdrawOwn e t).dru = x.dru
      ∧ (x.withdrawOwn e t).adu = x.adu ∧ (x.withdrawOwn e t).mgu = x.mgu := by
  unfold Plant.withdrawOwn
  dsimp only
  (repeat' split) <;> simp

/-- A service slot's or a handoff slot's turn in `orphanSlots`. -/
def Plant.orphanService (t : TaskNo) (n : Fin 8) (y : Plant) : Plant :=
  if (y.service n).state = .occupied ∧ (y.service n).task = some t then
    let z := y.setService n { y.service n with task := none }
    if z.pru.namesSlot (.service n) then z else z.requestRecovery (.service n)
  else y

def Plant.orphanHandoff (t : TaskNo) (h : Fin 4) (y : Plant) : Plant :=
  if (y.handoff h).state = .occupied ∧ (y.handoff h).task = some t then
    (y.setHandoff h { y.handoff h with task := none }).requestRecovery (.handoff h)
  else y

theorem Plant.orphanSlots_eq (t : TaskNo) (x : Plant) :
    x.orphanSlots t = (List.finRange 4).foldl (fun y h => y.orphanHandoff t h)
      ((List.finRange 8).foldl (fun y n => y.orphanService t n) x) := rfl

@[simp] theorem Plant.orphanService_frame (t : TaskNo) (n : Fin 8) (x : Plant) :
    (x.orphanService t n).ltu.records = x.ltu.records ∧ (x.orphanService t n).mou = x.mou
      ∧ (x.orphanService t n).dru = x.dru ∧ (x.orphanService t n).pru = x.pru ∧ (x.orphanService t n).adu = x.adu
      ∧ (x.orphanService t n).mgu = x.mgu ∧ (x.orphanService t n).out = x.out := by
  unfold Plant.orphanService
  dsimp only
  (repeat' split) <;> simp

@[simp] theorem Plant.orphanHandoff_frame (t : TaskNo) (h : Fin 4) (x : Plant) :
    (x.orphanHandoff t h).ltu = x.ltu ∧ (x.orphanHandoff t h).dru = x.dru ∧ (x.orphanHandoff t h).pru = x.pru
      ∧ (x.orphanHandoff t h).adu = x.adu ∧ (x.orphanHandoff t h).mgu = x.mgu ∧ (x.orphanHandoff t h).out = x.out := by
  unfold Plant.orphanHandoff
  split <;> simp

@[simp] theorem Plant.orphanSlots_frame (t : TaskNo) (x : Plant) :
    (x.orphanSlots t).ltu.records = x.ltu.records ∧ (x.orphanSlots t).dru = x.dru ∧ (x.orphanSlots t).pru = x.pru
      ∧ (x.orphanSlots t).adu = x.adu ∧ (x.orphanSlots t).mgu = x.mgu ∧ (x.orphanSlots t).out = x.out := by
  rw [Plant.orphanSlots_eq]
  refine ⟨?_, ?_, ?_, ?_, ?_, ?_⟩
  · exact (foldl_keeps (fun y : Plant => y.ltu.records) (fun _ _ => by simp) _ _).trans
      (foldl_keeps (fun y : Plant => y.ltu.records) (fun _ _ => by simp) _ _)
  all_goals exact (foldl_keeps _ (fun _ _ => by simp) _ _).trans (foldl_keeps _ (fun _ _ => by simp) _ _)

@[simp] theorem Plant.answerRequester_frame (t : TaskNo) (f : Option Final) (x : Plant) :
    (x.answerRequester t f).ltu = x.ltu ∧ (x.answerRequester t f).mou = x.mou ∧ (x.answerRequester t f).dru = x.dru
      ∧ (x.answerRequester t f).pru = x.pru ∧ (x.answerRequester t f).adu = x.adu
      ∧ (x.answerRequester t f).mgu = x.mgu := by
  unfold Plant.answerRequester; (repeat' split) <;> simp

@[simp] theorem Plant.answerOrder_frame (t : TaskNo) (f : Option Final) (x : Plant) :
    (x.answerOrder t f).ltu = x.ltu ∧ (x.answerOrder t f).mou = x.mou ∧ (x.answerOrder t f).dru = x.dru
      ∧ (x.answerOrder t f).pru = x.pru ∧ (x.answerOrder t f).adu = x.adu ∧ (x.answerOrder t f).mgu = x.mgu := by
  unfold Plant.answerOrder; (repeat' split) <;> simp

@[simp] theorem Plant.outliveCarries_frame (t : TaskNo) (x : Plant) :
    (x.outliveCarries t).ltu = x.ltu ∧ (x.outliveCarries t).tcu = x.tcu ∧ (x.outliveCarries t).dru = x.dru
      ∧ (x.outliveCarries t).pru = x.pru ∧ (x.outliveCarries t).adu = x.adu ∧ (x.outliveCarries t).mgu = x.mgu
      ∧ (x.outliveCarries t).out = x.out := by
  simp [Plant.outliveCarries]

@[simp] theorem Plant.newTask_frame (t : TaskNo) (k : Task) (x : Plant) :
    (x.newTask t k).ltu = x.ltu ∧ (x.newTask t k).mou = x.mou ∧ (x.newTask t k).dru = x.dru
      ∧ (x.newTask t k).pru = x.pru ∧ (x.newTask t k).adu = x.adu ∧ (x.newTask t k).mgu = x.mgu
      ∧ (x.newTask t k).out = x.out := by
  simp [Plant.newTask]

@[simp] theorem Plant.judgeTimer_frame (e : Env) (x : Plant) :
    (x.judgeTimer e).ltu = x.ltu ∧ (x.judgeTimer e).tcu = x.tcu ∧ (x.judgeTimer e).mou = x.mou
      ∧ (x.judgeTimer e).dru = x.dru ∧ (x.judgeTimer e).pru = x.pru ∧ (x.judgeTimer e).mgu = x.mgu
      ∧ (x.judgeTimer e).out = x.out := by
  unfold Plant.judgeTimer; (repeat' split) <;> simp

@[simp] theorem Plant.finishList_frame (e : Env) (l : ListNo) (x : Plant) :
    (x.finishList e l).ltu = x.ltu ∧ (x.finishList e l).tcu = x.tcu ∧ (x.finishList e l).mou = x.mou
      ∧ (x.finishList e l).dru = x.dru ∧ (x.finishList e l).pru = x.pru := by
  simp [Plant.finishList]

@[simp] theorem Plant.takeUpEntry_frame (e : Env) (l : ListNo) (x : Plant) :
    (x.takeUpEntry e l).ltu = x.ltu ∧ (x.takeUpEntry e l).tcu = x.tcu ∧ (x.takeUpEntry e l).dru = x.dru
      ∧ (x.takeUpEntry e l).pru = x.pru := by
  unfold Plant.takeUpEntry
  dsimp only
  (repeat' split) <;> simp

@[simp] theorem Plant.startPass_frame (e : Env) (l : ListNo) (x : Plant) :
    (x.startPass e l).ltu = x.ltu ∧ (x.startPass e l).tcu = x.tcu ∧ (x.startPass e l).dru = x.dru
      ∧ (x.startPass e l).pru = x.pru := by
  unfold Plant.startPass; (repeat' split) <;> simp

@[simp] theorem Plant.trigger_frame (e : Env) (l : ListNo) (x : Plant) :
    (x.trigger e l).ltu = x.ltu ∧ (x.trigger e l).tcu = x.tcu ∧ (x.trigger e l).dru = x.dru
      ∧ (x.trigger e l).pru = x.pru := by
  unfold Plant.trigger
  dsimp only
  (repeat' split) <;> simp

@[simp] theorem Plant.completeEntry_frame (e : Env) (l : ListNo) (x : Plant) :
    (x.completeEntry e l).ltu = x.ltu ∧ (x.completeEntry e l).tcu = x.tcu ∧ (x.completeEntry e l).dru = x.dru
      ∧ (x.completeEntry e l).pru = x.pru := by
  unfold Plant.completeEntry
  dsimp only
  (repeat' split) <;> simp

@[simp] theorem Plant.auditStopped_frame (e : Env) (l : ListNo) (x : Plant) :
    (x.auditStopped e l).ltu = x.ltu ∧ (x.auditStopped e l).tcu = x.tcu ∧ (x.auditStopped e l).dru = x.dru
      ∧ (x.auditStopped e l).pru = x.pru := by
  unfold Plant.auditStopped
  dsimp only
  (repeat' split) <;> simp

@[simp] theorem Plant.suspendLeg_frame (e : Env) (l : ListNo) (g : Leg) (x : Plant) :
    (x.suspendLeg e l g).ltu = x.ltu ∧ (x.suspendLeg e l g).tcu = x.tcu ∧ (x.suspendLeg e l g).dru = x.dru
      ∧ (x.suspendLeg e l g).pru = x.pru ∧ (x.suspendLeg e l g).mgu = x.mgu ∧ (x.suspendLeg e l g).out = x.out := by
  simp [Plant.suspendLeg]

@[simp] theorem Plant.bump_frame (l : ListNo) (f : Counts → Counts) (x : Plant) :
    (x.bump l f).ltu = x.ltu ∧ (x.bump l f).tcu = x.tcu ∧ (x.bump l f).mou = x.mou ∧ (x.bump l f).dru = x.dru
      ∧ (x.bump l f).pru = x.pru ∧ (x.bump l f).mgu = x.mgu ∧ (x.bump l f).out = x.out := by
  simp [Plant.bump]

@[simp] theorem Plant.resolveForeign_frame (e : Env) (c : CellNo) (x : Plant) :
    (x.resolveForeign e c).ltu = x.ltu ∧ (x.resolveForeign e c).tcu = x.tcu ∧ (x.resolveForeign e c).mou = x.mou
      ∧ (x.resolveForeign e c).dru = x.dru ∧ (x.resolveForeign e c).adu = x.adu
      ∧ (x.resolveForeign e c).mgu = x.mgu := by
  unfold Plant.resolveForeign; (repeat' split) <;> simp

@[simp] theorem Plant.forTask_updTask_frame (f : TaskNo → Task → Task) (t : Option TaskNo) (x : Plant) :
    (x.forTask (fun u y => y.updTask u (f u)) t).ltu = x.ltu ∧ (x.forTask (fun u y => y.updTask u (f u)) t).mou = x.mou
      ∧ (x.forTask (fun u y => y.updTask u (f u)) t).dru = x.dru ∧ (x.forTask
          (fun u y => y.updTask u (f u)) t).pru = x.pru
      ∧ (x.forTask (fun u y => y.updTask u (f u)) t).adu = x.adu ∧ (x.forTask
          (fun u y => y.updTask u (f u)) t).mgu = x.mgu
      ∧ (x.forTask (fun u y => y.updTask u (f u)) t).out = x.out := by
  unfold Plant.forTask; split <;> simp

@[simp] theorem Plant.forgetSlot_frame (t : Option TaskNo) (l : Location) (x : Plant) :
    (x.forgetSlot t l).ltu = x.ltu ∧ (x.forgetSlot t l).mou = x.mou ∧ (x.forgetSlot t l).dru = x.dru
      ∧ (x.forgetSlot t l).pru = x.pru ∧ (x.forgetSlot t l).adu = x.adu ∧ (x.forgetSlot t l).mgu = x.mgu
      ∧ (x.forgetSlot t l).out = x.out := by
  unfold Plant.forgetSlot
  split <;> simp

@[simp] theorem Plant.gripRead_frame (a : Acc) (r : Label) (x : Plant) :
    (x.gripRead a r).ltu = x.ltu ∧ (x.gripRead a r).tcu = x.tcu ∧ (x.gripRead a r).dru = x.dru
      ∧ (x.gripRead a r).pru = x.pru ∧ (x.gripRead a r).adu = x.adu ∧ (x.gripRead a r).mgu = x.mgu
      ∧ (x.gripRead a r).out = x.out := by
  unfold Plant.gripRead; (repeat' split) <;> simp

@[simp] theorem Plant.supply_frame (e : Env) (a : Acc) (t : TaskNo) (x : Plant) :
    (x.supply e a t).ltu = x.ltu ∧ (x.supply e a t).tcu = x.tcu ∧ (x.supply e a t).dru = x.dru
      ∧ (x.supply e a t).pru = x.pru ∧ (x.supply e a t).adu = x.adu ∧ (x.supply e a t).mgu = x.mgu
      ∧ (x.supply e a t).out = x.out := by
  unfold Plant.supply; (repeat' split) <;> simp

@[simp] theorem Plant.legPicked_frame (a : Acc) (x : Plant) :
    (x.legPicked a).ltu = x.ltu ∧ (x.legPicked a).tcu = x.tcu ∧ (x.legPicked a).dru = x.dru
      ∧ (x.legPicked a).pru = x.pru ∧ (x.legPicked a).adu = x.adu ∧ (x.legPicked a).mgu = x.mgu
      ∧ (x.legPicked a).out = x.out := by
  simp [Plant.legPicked]

@[simp] theorem Plant.placedForRemoval_frame (e : Env) (t : TaskNo) (n : Fin 8) (x : Plant) :
    (x.placedForRemoval e t n).ltu = x.ltu ∧ (x.placedForRemoval e t n).mou = x.mou
      ∧ (x.placedForRemoval e t n).dru = x.dru ∧ (x.placedForRemoval e t n).adu = x.adu := by
  simp [Plant.placedForRemoval]

@[simp] theorem Plant.carryTo_frame (e : Env) (a : Acc) (t : TaskNo) (live : Bool) (dst : Location) (x : Plant) :
    (x.carryTo e a t live dst).ltu = x.ltu ∧ (x.carryTo e a t live dst).tcu = x.tcu
      ∧ (x.carryTo e a t live dst).dru = x.dru ∧ (x.carryTo e a t live dst).pru = x.pru
      ∧ (x.carryTo e a t live dst).adu = x.adu ∧ (x.carryTo e a t live dst).mgu = x.mgu
      ∧ (x.carryTo e a t live dst).out = x.out := by
  simp [Plant.carryTo]

@[simp] theorem Plant.carryService_frame (e : Env) (a : Acc) (t : TaskNo) (live : Bool) (x : Plant) :
    (x.carryService e a t live).ltu.records = x.ltu.records ∧ (x.carryService e a t live).dru = x.dru
      ∧ (x.carryService e a t live).pru = x.pru ∧ (x.carryService e a t live).adu = x.adu
      ∧ (x.carryService e a t live).mgu = x.mgu ∧ (x.carryService e a t live).out = x.out := by
  unfold Plant.carryService; (repeat' split) <;> simp

@[simp] theorem Plant.carryHandoff_frame (e : Env) (a : Acc) (t : TaskNo) (live : Bool) (x : Plant) :
    (x.carryHandoff e a t live).ltu.records = x.ltu.records ∧ (x.carryHandoff e a t live).dru = x.dru
      ∧ (x.carryHandoff e a t live).pru = x.pru ∧ (x.carryHandoff e a t live).adu = x.adu
      ∧ (x.carryHandoff e a t live).mgu = x.mgu ∧ (x.carryHandoff e a t live).out = x.out := by
  unfold Plant.carryHandoff; (repeat' split) <;> simp

@[simp] theorem Plant.take_frame (a : Acc) (l : Leg) (x : Plant) :
    (x.take a l).ltu = x.ltu ∧ (x.take a l).tcu = x.tcu ∧ (x.take a l).dru = x.dru ∧ (x.take a l).pru = x.pru
      ∧ (x.take a l).mgu = x.mgu ∧ (x.take a l).out = x.out := by
  unfold Plant.take; (repeat' split) <;> simp

@[simp] theorem Plant.recover_frame (e : Env) (a : Acc) (x : Plant) :
    (x.recover e a).ltu = x.ltu ∧ (x.recover e a).tcu = x.tcu ∧ (x.recover e a).dru = x.dru
      ∧ (x.recover e a).pru = x.pru ∧ (x.recover e a).adu = x.adu ∧ (x.recover e a).mgu = x.mgu := by
  unfold Plant.recover; (repeat' split) <;> simp

@[simp] theorem Plant.judgeZoneWaits_frame (x : Plant) :
    (x.judgeZoneWaits).ltu = x.ltu ∧ (x.judgeZoneWaits).mou = x.mou ∧ (x.judgeZoneWaits).dru = x.dru
      ∧ (x.judgeZoneWaits).pru = x.pru ∧ (x.judgeZoneWaits).adu = x.adu ∧ (x.judgeZoneWaits).mgu = x.mgu := by
  unfold Plant.judgeZoneWaits
  refine ⟨?_, ?_, ?_, ?_, ?_, ?_⟩ <;> exact foldl_keeps _ (fun y n => by (repeat' split) <;> simp) _ _

@[simp] theorem Plant.requestSlots_frame (x : Plant) :
    (x.requestSlots).ltu = x.ltu ∧ (x.requestSlots).mou = x.mou ∧ (x.requestSlots).dru = x.dru
      ∧ (x.requestSlots).pru = x.pru ∧ (x.requestSlots).adu = x.adu ∧ (x.requestSlots).mgu = x.mgu
      ∧ (x.requestSlots).out = x.out := by
  unfold Plant.requestSlots
  split
  · refine ⟨?_, ?_, ?_, ?_, ?_, ?_, ?_⟩ <;> exact foldl_keeps _ (fun y n => by split <;> simp) _ _
  · simp

@[simp] theorem Plant.requestLeft_frame (x : Plant) :
    (x.requestLeft).ltu = x.ltu ∧ (x.requestLeft).mou = x.mou ∧ (x.requestLeft).dru = x.dru
      ∧ (x.requestLeft).pru = x.pru ∧ (x.requestLeft).adu = x.adu ∧ (x.requestLeft).mgu = x.mgu
      ∧ (x.requestLeft).out = x.out := by
  unfold Plant.requestLeft
  refine ⟨?_, ?_, ?_, ?_, ?_, ?_, ?_⟩ <;>
    exact (foldl_keeps _ (fun y d => by split <;> simp) _ _).trans
      ((foldl_keeps _ (fun y n => by split <;> simp) _ _).trans (foldl_keeps _ (fun y h => by split <;> simp) _ _))

@[simp] theorem Plant.answered_frame (a : Acc) (x : Plant) :
    (x.answered a).ltu = x.ltu ∧ (x.answered a).mou = x.mou ∧ (x.answered a).dru = x.dru
      ∧ (x.answered a).pru = x.pru ∧ (x.answered a).adu = x.adu ∧ (x.answered a).out = x.out := by
  unfold Plant.answered
  dsimp only
  (repeat' split) <;> simp

@[simp] theorem Plant.faultTask_frame (a : Acc) (t : TaskNo) (n : Nat) (x : Plant) :
    (x.faultTask a t n).ltu = x.ltu ∧ (x.faultTask a t n).dru = x.dru ∧ (x.faultTask a t n).pru = x.pru
      ∧ (x.faultTask a t n).adu = x.adu ∧ (x.faultTask a t n).mgu = x.mgu := by
  simp [Plant.faultTask]

@[simp] theorem Plant.late_frame (a : Acc) (x : Plant) :
    (x.late a).ltu = x.ltu ∧ (x.late a).tcu = x.tcu ∧ (x.late a).dru = x.dru ∧ (x.late a).pru = x.pru
      ∧ (x.late a).adu = x.adu ∧ (x.late a).mgu = x.mgu ∧ (x.late a).out = x.out := by
  simp [Plant.late]

@[simp] theorem Plant.endAudit_frame (e : Env) (a : Acc) (n : ListNo) (stopped : Bool) (x : Plant) :
    (x.endAudit e a n stopped).ltu = x.ltu ∧ (x.endAudit e a n stopped).tcu = x.tcu
      ∧ (x.endAudit e a n stopped).dru = x.dru ∧ (x.endAudit e a n stopped).pru = x.pru := by
  unfold Plant.endAudit; (repeat' split) <;> simp

@[simp] theorem Plant.attachDismount_frame (h : Hdr) (d : DriveNo) (t : TaskNo) (x : Plant) :
    (x.attachDismount h d t).ltu = x.ltu ∧ (x.attachDismount h d t).mou = x.mou
      ∧ (x.attachDismount h d t).pru = x.pru ∧ (x.attachDismount h d t).adu = x.adu
      ∧ (x.attachDismount h d t).mgu = x.mgu := by
  unfold Plant.attachDismount; (repeat' split) <;> simp

@[simp] theorem Plant.enterTask_frame (e : Env) (t : TaskNo) (n : Fin 8) (x : Plant) :
    (x.enterTask e t n).ltu.records = x.ltu.records ∧ (x.enterTask e t n).dru = x.dru
      ∧ (x.enterTask e t n).adu = x.adu := by
  simp [Plant.enterTask]

@[simp] theorem Plant.promote_frame (e : Env) (x : Plant) :
    (x.promote e).ltu = x.ltu ∧ (x.promote e).tcu = x.tcu ∧ (x.promote e).dru = x.dru ∧ (x.promote e).pru = x.pru
      ∧ (x.promote e).adu = x.adu ∧ (x.promote e).mgu = x.mgu ∧ (x.promote e).out = x.out := by
  unfold Plant.promote; (repeat' split) <;> simp

@[simp] theorem Plant.strayDrive_frame (d : DriveNo) (x : Plant) :
    (x.strayDrive d).ltu = x.ltu ∧ (x.strayDrive d).tcu = x.tcu ∧ (x.strayDrive d).mou = x.mou
      ∧ (x.strayDrive d).pru = x.pru ∧ (x.strayDrive d).adu = x.adu ∧ (x.strayDrive d).mgu = x.mgu
      ∧ (x.strayDrive d).out = x.out := by
  simp [Plant.strayDrive]

@[simp] theorem Plant.watchMount_frame (e : Env) (s : Serial) (d : DriveNo) (x : Plant) :
    (x.watchMount e s d).ltu = x.ltu ∧ (x.watchMount e s d).tcu = x.tcu ∧ (x.watchMount e s d).mou = x.mou
      ∧ (x.watchMount e s d).dru = x.dru ∧ (x.watchMount e s d).adu = x.adu := by
  unfold Plant.watchMount; (repeat' split) <;> simp

@[simp] theorem Plant.unfault_frame (e : Env) (d : DriveNo) (x : Plant) :
    (x.unfault e d).ltu.records = x.ltu.records ∧ (x.unfault e d).adu = x.adu := by
  unfold Plant.unfault
  dsimp only
  (repeat' split) <;> simp

@[simp] theorem Plant.online_frame (e : Env) (d : DriveNo) (x : Plant) :
    (x.online e d).ltu.records = x.ltu.records ∧ (x.online e d).adu = x.adu := by
  unfold Plant.online
  dsimp only
  (repeat' split) <;> simp

@[simp] theorem Plant.cameOut_frame (e : Env) (d : DriveNo) (x : Plant) :
    (x.cameOut e d).ltu.records = x.ltu.records ∧ (x.cameOut e d).adu = x.adu := by
  unfold Plant.cameOut; (repeat' split) <;> simp

@[simp] theorem Plant.offline_frame (e : Env) (d : DriveNo) (x : Plant) :
    (x.offline e d).ltu = x.ltu ∧ (x.offline e d).tcu = x.tcu ∧ (x.offline e d).mou = x.mou
      ∧ (x.offline e d).adu = x.adu ∧ (x.offline e d).mgu = x.mgu := by
  unfold Plant.offline
  dsimp only
  (repeat' split) <;> simp

@[simp] theorem Plant.checked_frame (d : DriveNo) (x : Plant) :
    (x.checked d).ltu = x.ltu ∧ (x.checked d).tcu = x.tcu ∧ (x.checked d).mou = x.mou ∧ (x.checked d).pru = x.pru
      ∧ (x.checked d).adu = x.adu ∧ (x.checked d).mgu = x.mgu ∧ (x.checked d).out = x.out := by
  unfold Plant.checked; (repeat' split) <;> simp

@[simp] theorem Plant.answerClean_frame (e : Env) (d : DriveNo) (w : Answer) (x : Plant) :
    (x.answerClean e d w).ltu.records = x.ltu.records ∧ (x.answerClean e d w).adu = x.adu := by
  unfold Plant.answerClean
  dsimp only
  (repeat' split) <;> simp

@[simp] theorem Plant.startRecovery_frame (e : Env) (a : Acc) (n : Nat) (x : Plant) :
    (x.startRecovery e a n).ltu = x.ltu ∧ (x.startRecovery e a n).dru = x.dru ∧ (x.startRecovery e a n).pru = x.pru
      ∧ (x.startRecovery e a n).adu = x.adu ∧ (x.startRecovery e a n).mgu = x.mgu := by
  unfold Plant.startRecovery
  dsimp only
  split
  · simp only [Plant.recover_frame]
    refine ⟨?_, ?_, ?_, ?_, ?_⟩ <;> exact foldl_keeps _ (fun y n => by split <;> simp) _ _
  · refine ⟨?_, ?_, ?_, ?_, ?_⟩ <;> exact foldl_keeps _ (fun y n => by split <;> simp) _ _

@[simp] theorem Plant.updPrompt_frame (n : Nat) (f : Prompt → Prompt) (x : Plant) :
    (x.updPrompt n f).ltu = x.ltu ∧ (x.updPrompt n f).tcu = x.tcu ∧ (x.updPrompt n f).mou = x.mou
      ∧ (x.updPrompt n f).dru = x.dru ∧ (x.updPrompt n f).adu = x.adu ∧ (x.updPrompt n f).mgu = x.mgu
      ∧ (x.updPrompt n f).out = x.out := by
  simp [Plant.updPrompt]

@[simp] theorem Plant.doorTriggers_frame (e : Env) (x : Plant) :
    (x.doorTriggers e).ltu = x.ltu ∧ (x.doorTriggers e).tcu = x.tcu ∧ (x.doorTriggers e).dru = x.dru
      ∧ (x.doorTriggers e).pru = x.pru := by
  unfold Plant.doorTriggers
  dsimp only
  (repeat' split) <;> simp

@[simp] theorem Plant.sendRecords_frame (h : Hdr) (l : List Usage) (x : Plant) :
    (x.sendRecords h l).ltu = x.ltu ∧ (x.sendRecords h l).tcu = x.tcu ∧ (x.sendRecords h l).mou = x.mou
      ∧ (x.sendRecords h l).dru = x.dru ∧ (x.sendRecords h l).pru = x.pru ∧ (x.sendRecords h l).adu = x.adu
      ∧ (x.sendRecords h l).mgu = x.mgu := by
  unfold Plant.sendRecords
  refine ⟨?_, ?_, ?_, ?_, ?_, ?_, ?_⟩ <;> exact foldl_keeps _ (fun _ _ => by simp) _ _

@[simp] theorem Plant.endAuditLeg_frame (e : Env) (l : ListNo) (x : Plant) :
    (x.endAuditLeg e l).ltu = x.ltu ∧ (x.endAuditLeg e l).tcu = x.tcu ∧ (x.endAuditLeg e l).dru = x.dru
      ∧ (x.endAuditLeg e l).pru = x.pru := by
  unfold Plant.endAuditLeg; (repeat' split) <;> simp

@[simp] theorem Plant.endPass_frame (e : Env) (l : ListNo) (x : Plant) :
    (x.endPass e l).ltu = x.ltu ∧ (x.endPass e l).tcu = x.tcu ∧ (x.endPass e l).dru = x.dru
      ∧ (x.endPass e l).pru = x.pru := by
  unfold Plant.endPass; (repeat' split) <;> simp

@[simp] theorem Plant.setMode_frame (e : Env) (l : ListNo) (m : AuditMode) (x : Plant) :
    (x.setMode e l m).ltu = x.ltu ∧ (x.setMode e l m).tcu = x.tcu ∧ (x.setMode e l m).dru = x.dru
      ∧ (x.setMode e l m).pru = x.pru := by
  simp [Plant.setMode]

@[simp] theorem Plant.intervalExpired_frame (e : Env) (x : Plant) :
    (x.intervalExpired e).ltu = x.ltu ∧ (x.intervalExpired e).tcu = x.tcu ∧ (x.intervalExpired e).dru = x.dru
      ∧ (x.intervalExpired e).pru = x.pru := by
  unfold Plant.intervalExpired
  dsimp only
  (repeat' split) <;> simp

@[simp] theorem Plant.clearPairs_frame (l : List (Fin 14 × Nat)) (x : Plant) :
    (x.clearPairs l).ltu = x.ltu ∧ (x.clearPairs l).tcu = x.tcu ∧ (x.clearPairs l).mou = x.mou
      ∧ (x.clearPairs l).dru = x.dru ∧ (x.clearPairs l).pru = x.pru ∧ (x.clearPairs l).adu = x.adu
      ∧ (x.clearPairs l).out = x.out := by
  unfold Plant.clearPairs
  refine ⟨?_, ?_, ?_, ?_, ?_, ?_, ?_⟩ <;> exact foldl_keeps _ (fun y n => by (repeat' split) <;> simp) _ _

@[simp] theorem Plant.restartDrive_frame (e : Env) (d : DriveNo) (x : Plant) :
    (x.restartDrive e d).ltu = x.ltu ∧ (x.restartDrive e d).tcu = x.tcu ∧ (x.restartDrive e d).mou = x.mou
      ∧ (x.restartDrive e d).adu = x.adu := by
  unfold Plant.restartDrive
  dsimp only
  (repeat' split) <;> simp

@[simp] theorem Plant.restartDrives_frame (e : Env) (x : Plant) :
    (x.restartDrives e).ltu = x.ltu ∧ (x.restartDrives e).tcu = x.tcu ∧ (x.restartDrives e).mou = x.mou
      ∧ (x.restartDrives e).adu = x.adu := by
  unfold Plant.restartDrives
  refine ⟨?_, ?_, ?_, ?_⟩ <;> exact foldl_keeps _ (fun _ _ => by simp) _ _

@[simp] theorem Plant.restartPrompts_frame (e : Env) (x : Plant) :
    (x.restartPrompts e).ltu = x.ltu ∧ (x.restartPrompts e).tcu = x.tcu ∧ (x.restartPrompts e).mou = x.mou
      ∧ (x.restartPrompts e).dru = x.dru ∧ (x.restartPrompts e).adu = x.adu ∧ (x.restartPrompts e).mgu = x.mgu := by
  simp [Plant.restartPrompts]

end Sys2Proof.Machine
end

section
/-!
SUPPORT. Agreement of the library tables is kept by every function of the plant that writes them.
-/
namespace Sys2Proof.Machine

/-! ### Writes outside the library tables -/

@[simp] theorem Plant.sendC_records (f : CFrame) (x : Plant) : (x.sendC f).ltu.records = x.ltu.records := (rfl)

@[simp] theorem Plant.sendM_records (f : MFrame) (x : Plant) : (x.sendM f).ltu.records = x.ltu.records := (rfl)

@[simp] theorem Plant.status_records (p : Path) (tag : Option Byte) (m : Mark) (st : Status) (x : Plant) :
    (x.status p tag m st).ltu.records = x.ltu.records := (rfl)

@[simp] theorem Plant.reply_records (h : Hdr) (r : Reply) (c : Contents) (x : Plant) :
    (x.reply h r c).ltu.records = x.ltu.records := (rfl)

@[simp] theorem Plant.clearFlag_records (f : Fin 14) (x : Plant) : (x.clearFlag f).ltu.records = x.ltu.records := (rfl)

@[simp] theorem Plant.setHandoff_records (h : Fin 4) (r : Slot) (x : Plant) :
    (x.setHandoff h r).ltu.records = x.ltu.records := (rfl)

@[simp] theorem Plant.setEntry_records (n : Fin 8) (r : Slot) (x : Plant) :
    (x.setEntry n r).ltu.records = x.ltu.records := (rfl)

@[simp] theorem Plant.setService_records (n : Fin 8) (r : Slot) (x : Plant) :
    (x.setService n r).ltu.records = x.ltu.records := (rfl)

@[simp] theorem Plant.putTask_records (t : TaskNo) (k : Option Task) (x : Plant) :
    (x.putTask t k).ltu.records = x.ltu.records := (rfl)

@[simp] theorem Plant.updTask_records (t : TaskNo) (f : Task → Task) (x : Plant) :
    (x.updTask t f).ltu.records = x.ltu.records := (rfl)

@[simp] theorem Plant.putDrive_records (d : DriveNo) (r : Drive) (x : Plant) :
    (x.putDrive d r).ltu.records = x.ltu.records := (rfl)

@[simp] theorem Plant.updDrive_records (d : DriveNo) (f : Drive → Drive) (x : Plant) :
    (x.updDrive d f).ltu.records = x.ltu.records := (rfl)

@[simp] theorem Plant.joinQueue_records (e : Env) (l : Leg) (x : Plant) :
    (x.joinQueue e l).ltu.records = x.ltu.records := (rfl)

@[simp] theorem Plant.grantZone_records (e : Env) (a : Acc) (x : Plant) :
    (x.grantZone e a).ltu.records = x.ltu.records := (rfl)

/-! ### Every operation keeps the library tables in agreement -/

/-- A property that every step of a fold keeps. -/
theorem foldl_preserves {α β : Type} {p : β → Prop} {f : β → α → β} (hf : ∀ y a, p y → p (f y a)) (l : List α) {x : β}
    (h : p x) : p (l.foldl f x) := List.foldlRecOn l f h fun y hy a _ => hf y a hy

@[simp] theorem Plant.setOcc_agree {x : Plant} (h : x.ltu.records.agree) {c : CellNo} {o : Occ}
    (ho : ∀ q, o ≠ .occupied q) :
    (x.setOcc c o).ltu.records.agree := (Plant.agree_iff _).mp (((Plant.agree_iff x).mpr h).setOcc c ho)

theorem Plant.putOcc_empty_agree {x : Plant} (h : x.ltu.records.agree) {c : CellNo}
    (ho : ∀ q, (x.cell c).occ ≠ .occupied q) :
    (x.putOcc c .empty).ltu.records.agree := (Plant.agree_iff _).mp (((Plant.agree_iff x).mpr h).putOcc_empty ho)

@[simp] theorem Plant.moveVol_agree {x : Plant} (h : x.ltu.records.agree) (s : Serial) (l : Location) :
    (x.moveVol s l).ltu.records.agree := (Plant.agree_iff _).mp (((Plant.agree_iff x).mpr h).moveVol s l)

@[simp] theorem Plant.deleteVol_agree {x : Plant} (h : x.ltu.records.agree) (s : Serial) :
    (x.deleteVol s).ltu.records.agree := (Plant.agree_iff _).mp (((Plant.agree_iff x).mpr h).deleteVol s)

/-- A change of a record that the other tables do not show. -/
def Volume.Unseen (f : Volume → Volume) : Prop :=
  ∀ v, (f v).serial = v.serial ∧ (f v).home = v.home ∧ (f v).scratch = v.scratch ∧ (f v).loc = v.loc
    ∧ (f v).cls = v.cls ∧ (f v).misfiled = v.misfiled

theorem Plant.updVol_agree {x : Plant} (h : x.ltu.records.agree) {s : Serial} {f : Volume → Volume}
    (hf : Volume.Unseen f)
    (hr : ∀ v, x.vol? s = some v → (f v).refilePending = true → v.refilePending = true ∨ v.misfiled = true) :
    (x.updVol s f).ltu.records.agree := (Plant.agree_iff _).mp (((Plant.agree_iff x).mpr h).updVol hf hr)

/-- A change that leaves the refile pending mark too, or clears it. -/
theorem Plant.updVol_agree_of_pending {x : Plant} (h : x.ltu.records.agree) {s : Serial} {f : Volume → Volume}
    (hf : Volume.Unseen f) (hr : ∀ v, (f v).refilePending = true → v.refilePending = true) :
    (x.updVol s f).ltu.records.agree := Plant.updVol_agree h hf fun v _ hp => .inl (hr v hp)

/-- The binding is no part of the tables' agreement (R8). -/
theorem Plant.bound_agree {x : Plant} (h : x.ltu.records.agree) (s : Serial) (b : Option TaskNo) :
    (x.updVol s ({ · with bound := b })).ltu.records.agree :=
  Plant.updVol_agree_of_pending h (fun _ => by simp) fun _ => id

@[simp] theorem Plant.releaseCell_agree {x : Plant} (h : x.ltu.records.agree) (t : TaskNo) :
    (x.releaseCell t).ltu.records.agree := by
  unfold Plant.releaseCell
  dsimp only
  (repeat' split) <;> simp [↓Plant.updTask_records, h]

@[simp] theorem Plant.releaseEntries_agree {x : Plant} (h : x.ltu.records.agree) (t : TaskNo) :
    (x.releaseEntries t).ltu.records.agree := by
  refine foldl_preserves (p := fun y : Plant => y.ltu.records.agree) (fun y n hy => ?_) _ h
  (repeat' split) <;> simp [↓Plant.setEntry_records, hy]

@[simp] theorem Plant.reserveCell_agree {x : Plant} (h : x.ltu.records.agree) (t : TaskNo) (s : Serial) (c : CellNo) :
    (x.reserveCell t s c).ltu.records.agree := by
  simp [Plant.reserveCell, h]

@[simp] theorem Plant.planFreeCell_agree {x : Plant} (h : x.ltu.records.agree) (e : Env) (t : TaskNo) (s : Serial) :
    (x.planFreeCell e t s).ltu.records.agree := by
  unfold Plant.planFreeCell; (repeat' split) <;> simp [h]

@[simp] theorem Plant.planStore_agree {x : Plant} (h : x.ltu.records.agree) (e : Env) (t : TaskNo) :
    (x.planStore e t).ltu.records.agree := by
  unfold Plant.planStore; (repeat' split) <;> simp [h]

@[simp] theorem Plant.planDemount_agree {x : Plant} (h : x.ltu.records.agree) (e : Env) (t : TaskNo) :
    (x.planDemount e t).ltu.records.agree := by
  unfold Plant.planDemount; (repeat' split) <;> simp [h]

@[simp] theorem Plant.planSettle_agree {x : Plant} (h : x.ltu.records.agree) (e : Env) (t : TaskNo) :
    (x.planSettle e t).ltu.records.agree := by
  unfold Plant.planSettle; (repeat' split) <;> simp [h]

@[simp] theorem Plant.unbindVol_agree {x : Plant} (h : x.ltu.records.agree) (t : TaskNo) :
    (x.unbindVol t).ltu.records.agree := by
  refine (Plant.agree_iff _).mp (((Plant.agree_iff x).mpr h).of_map_loc
    (f := fun v => if v.bound = some t then { v with bound := none } else v) rfl (fun v => by split <;> rfl) ?_ rfl rfl)
  intro q v _
  split
  · exact ⟨rfl, rfl, rfl, id⟩
  · exact ⟨rfl, rfl, rfl, id⟩

@[simp] theorem Plant.endTask_agree {x : Plant} (h : x.ltu.records.agree) (e : Env) (t : TaskNo) (f : Option Final) :
    (x.endTask e t f).ltu.records.agree := by
  unfold Plant.endTask
  dsimp only
  have hy := Plant.releaseEntries_agree (x := ((((x.dropLegs e t).releaseCell t).releaseHandoff t).releaseService t))
      (by simp [h]) t
  have hz := Plant.unbindVol_agree
      (x := ((((((x.dropLegs e t).releaseCell t).releaseHandoff t).releaseService t).releaseEntries t).withdrawOwn e t)) (by simp [hy]) t
  simp [hz]

@[simp] theorem Plant.planReturn_agree {x : Plant} (h : x.ltu.records.agree) (e : Env) (t : TaskNo) :
    (x.planReturn e t).ltu.records.agree := by
  unfold Plant.planReturn; (repeat' split) <;> simp [h]

@[simp] theorem Plant.planTask_agree {x : Plant} (h : x.ltu.records.agree) (e : Env) (t : TaskNo) :
    (x.planTask e t).ltu.records.agree := by
  unfold Plant.planTask
  dsimp only
  (repeat' split) <;> simp [↓Plant.updTask_records, h]

@[simp] theorem Plant.resumeWaiter_agree {x : Plant} (h : x.ltu.records.agree) (e : Env) (t : TaskNo) (k : Task) :
    (x.resumeWaiter e t k).ltu.records.agree := by
  unfold Plant.resumeWaiter
  dsimp only
  (repeat' split) <;> simp [↓Plant.updTask_records, h]

theorem Plant.serveWaiters_agree (e : Env) : ∀ (n : Nat) {x : Plant}, x.ltu.records.agree →
    (x.serveWaiters e n).ltu.records.agree
  | 0, _, h => h
  | n + 1, x, h => by
    unfold Plant.serveWaiters
    (repeat' split)
    · exact serveWaiters_agree e n (Plant.resumeWaiter_agree h e _ _)
    · exact serveWaiters_agree e n (Plant.resumeWaiter_agree h e _ _)
    · exact h

@[simp] theorem Plant.offerSlots_agree {x : Plant} (h : x.ltu.records.agree) (e : Env) :
    (x.offerSlots e).ltu.records.agree := by
  exact Plant.serveWaiters_agree e 64 h

@[simp] theorem Plant.planAnew_agree {x : Plant} (h : x.ltu.records.agree) (e : Env) (t : TaskNo) :
    (x.planAnew e t).ltu.records.agree := by
  simp [Plant.planAnew, h]

@[simp] theorem Plant.resolve_agree {x : Plant} (h : x.ltu.records.agree) (e : Env) (t : TaskNo) (fetched : Bool) :
    (x.resolve e t fetched).ltu.records.agree := by
  unfold Plant.resolve; (repeat' split) <;> simp [h]

@[simp] theorem Plant.replan_agree {x : Plant} (h : x.ltu.records.agree) (e : Env) (t : TaskNo) :
    (x.replan e t).ltu.records.agree := by
  unfold Plant.replan; (repeat' split) <;> simp [h]

@[simp] theorem Plant.createRefile_agree {x : Plant} (h : x.ltu.records.agree) (e : Env) (v : Volume) :
    (x.createRefile e v).ltu.records.agree := by
  unfold Plant.createRefile
  split
  next t c _ _ =>
    have hy := Plant.updVol_agree_of_pending
        (x := x.newTask t { Task.new .refile .internal e.tick with serial := some v.serial })
      (by simp [h]) (s := v.serial) (f := ({ · with bound := some t, refilePending := false })) (fun _ => by simp)
          (by simp)
    simpa using Plant.reserveCell_agree hy t v.serial c
  · exact h

@[simp] theorem Plant.refileRequest_agree {x : Plant} (h : x.ltu.records.agree) (e : Env) (s : Serial) :
    (x.refileRequest e s).ltu.records.agree := by
  unfold Plant.refileRequest
  split
  next v hv =>
    split
    next hm =>
      split
      · simp [h]
      · exact Plant.updVol_agree h (fun _ => by simp) fun w hw _ => .inr
          (by rw [Option.some.inj (hw.symm.trans hv)]; exact hm)
    · exact h
  · exact h

@[simp] theorem Plant.relocate_agree {x : Plant} (h : x.ltu.records.agree) (e : Env) (s : Serial) (l : Location) :
    (x.relocate e s l).ltu.records.agree := by
  simp [Plant.relocate, h]

@[simp] theorem Plant.judgeWorn_agree {x : Plant} (h : x.ltu.records.agree) (e : Env) (s : Serial) (d : DriveNo)
    (reached : Volume → Bool) :
    (x.judgeWorn e s d reached).ltu.records.agree := by
  have hw := Plant.updVol_agree_of_pending h (s := s) (f := ({ · with worn := true })) (fun _ => by simp) fun _ => id
  unfold Plant.judgeWorn
  (repeat' split) <;> simp [-Plant.updVol_ltu, h, hw]

@[simp] theorem Plant.wear_agree {x : Plant} (h : x.ltu.records.agree) (e : Env) (s : Serial) (d : DriveNo) (f : Nat) :
    (x.wear e s d f).ltu.records.agree := by
  have hw := Plant.updVol_agree_of_pending h (s := s)
    (f := fun v => { v with mounts := satAdd 65535 v.mounts 1, footage := satAdd maxTotal v.footage f })
    (fun _ => by simp) fun _ => id
  exact Plant.judgeWorn_agree hw e s d _

@[simp] theorem Plant.unseat_agree {x : Plant} (h : x.ltu.records.agree) (c : CellNo) :
    (x.unseat c).1.ltu.records.agree := by
  unfold Plant.unseat; (repeat' split) <;> simp [h]

@[simp] theorem Plant.readForeign_agree {x : Plant} (h : x.ltu.records.agree) (e : Env) (a : Acc) (l : ListNo)
    (c : CellNo) (w : Serial) :
    (x.readForeign e a l c w).ltu.records.agree := by
  unfold Plant.readForeign
  dsimp only
  (repeat' split) <;> simp [h]

@[simp] theorem Plant.readHere_agree {x : Plant} (h : x.ltu.records.agree) (e : Env) (l : ListNo) (c : CellNo)
    (w : Volume) :
    (x.readHere e l c w).ltu.records.agree := by
  unfold Plant.readHere
  extract_lets leg y z z'
  have hy : y.ltu.records.agree := by simp [y, h]
  have hz : z.ltu.records.agree := by simp only [z]; split <;> simp [hy]
  have hz' : z'.ltu.records.agree := by simp only [z']; split <;> simp [hz]
  (repeat' split) <;> simp [hz, hz']

@[simp] theorem Plant.readEmpty_agree {x : Plant} (h : x.ltu.records.agree) (e : Env) (l : ListNo) (c : CellNo) :
    (x.readEmpty e l c).ltu.records.agree := by
  unfold Plant.readEmpty
  dsimp only
  (repeat' split) <;> simp [h]

@[simp] theorem Plant.readUnreadable_agree {x : Plant} (h : x.ltu.records.agree) (e : Env) (l : ListNo) (c : CellNo) :
    (x.readUnreadable e l c).ltu.records.agree := by
  simp [Plant.readUnreadable, h]

@[simp] theorem Plant.judgeReading_agree {x : Plant} (h : x.ltu.records.agree) (e : Env) (a : Acc) (l : ListNo)
    (c : CellNo) (r : Reading) :
    (x.judgeReading e a l c r).ltu.records.agree := by
  unfold Plant.judgeReading
  dsimp only
  (repeat' split) <;> simp [h]

@[simp] theorem Plant.forTask_unbindDrive_ltu (t : Option TaskNo) (x : Plant) :
    (x.forTask Plant.unbindDrive t).ltu = x.ltu := by
  cases t <;> simp [Plant.forTask]

@[simp] theorem Plant.vacate_agree {x : Plant} (h : x.ltu.records.agree) (e : Env) (t : Option TaskNo)
    (src : Location) :
    (x.vacate e t src).ltu.records.agree := by
  unfold Plant.vacate
  split
  case h_5 c =>
    split
    next hc => exact Plant.putOcc_empty_agree h fun q => by simp [hc]
    next hc => exact Plant.putOcc_empty_agree h fun q => by simp [hc]
    · exact h
  all_goals (repeat' split) <;> simp [h]

@[simp] theorem Plant.moveFound_agree {x : Plant} (h : x.ltu.records.agree) (s : Serial) (l : Location) :
    (x.moveFound s l).ltu.records.agree := by
  unfold Plant.moveFound; (repeat' split) <;> simp [h]

@[simp] theorem Plant.releaseAll_agree {x : Plant} (h : x.ltu.records.agree) (t : TaskNo) :
    (x.releaseAll t).ltu.records.agree := by
  simp [Plant.releaseAll, h]

@[simp] theorem Plant.lostAt_agree {x : Plant} (h : x.ltu.records.agree) (t : TaskNo) (src : Location) :
    (x.lostAt t src).ltu.records.agree := by
  unfold Plant.lostAt; (repeat' split) <;> simp [h]

@[simp] theorem Plant.afterLoss_agree {x : Plant} (h : x.ltu.records.agree) (e : Env) (t : TaskNo) :
    (x.afterLoss e t).ltu.records.agree := by
  unfold Plant.afterLoss; (repeat' split) <;> simp [h]

@[simp] theorem Plant.turnBack_agree {x : Plant} (h : x.ltu.records.agree) (e : Env) (t : TaskNo) :
    (x.turnBack e t).ltu.records.agree := by
  unfold Plant.turnBack
  dsimp only
  (repeat' split) <;> simp [h]

@[simp] theorem Plant.afterEnding_agree {x : Plant} (h : x.ltu.records.agree) (e : Env) (a : Acc) (t : TaskNo) :
    (x.afterEnding e a t).ltu.records.agree := by
  unfold Plant.afterEnding; (repeat' split) <;> simp [h]

@[simp] theorem Plant.takeFound_agree {x : Plant} (h : x.ltu.records.agree) (e : Env) (a : Acc) (t : Option TaskNo)
    (r : Label) :
    (x.takeFound e a t r).ltu.records.agree := by
  unfold Plant.takeFound; (repeat' split) <;> simp [h]

@[simp] theorem Plant.reserveSource_agree {x : Plant} (h : x.ltu.records.agree) (t : TaskNo) (src : Location)
    (w : Option Serial) :
    (x.reserveSource t src w).ltu.records.agree := by
  unfold Plant.reserveSource; (repeat' split) <;> simp [h]

@[simp] theorem Plant.leaveSource_agree {x : Plant} (h : x.ltu.records.agree) (e : Env) (t : TaskNo) (src : Location) :
    (x.leaveSource e t src).ltu.records.agree := by
  unfold Plant.leaveSource; (repeat' split) <;> simp [h]

@[simp] theorem Plant.carryOff_agree {x : Plant} (h : x.ltu.records.agree) (e : Env) (a : Acc) (t : TaskNo)
    (src : Location) (r : Label) :
    (x.carryOff e a t src r).ltu.records.agree := by
  unfold Plant.carryOff
  dsimp only
  (repeat' split) <;> simp [h]

@[simp] theorem Plant.wrongReel_agree {x : Plant} (h : x.ltu.records.agree) (e : Env) (a : Acc) (t : TaskNo)
    (src : Location) (r : Label) :
    (x.wrongReel e a t src r).ltu.records.agree := by
  unfold Plant.wrongReel
  extract_lets y z _ w
  have hy : y.ltu.records.agree := by simp [y, h]
  have hz : z.ltu.records.agree := by simp [z, hy]
  have hw : w.ltu.records.agree := hz
  simp [hw]

@[simp] theorem Plant.wrongReelLate_agree {x : Plant} (h : x.ltu.records.agree) (e : Env) (a : Acc) (t : TaskNo)
    (src : Location) (r : Label) :
    (x.wrongReelLate e a t src r).ltu.records.agree := by
  simp [Plant.wrongReelLate, h]

@[simp] theorem Plant.pickMatch_agree {x : Plant} (h : x.ltu.records.agree) (e : Env) (a : Acc) (t : TaskNo)
    (l : Leg) (s : Serial) :
    (x.pickMatch e a t l s).ltu.records.agree := by
  unfold Plant.pickMatch; (repeat' split) <;> simp [h]

@[simp] theorem Plant.planIdentified_agree {x : Plant} (h : x.ltu.records.agree) (e : Env) (t : TaskNo) (c : VolClass) :
    (x.planIdentified e t c).ltu.records.agree := by
  unfold Plant.planIdentified; (repeat' split) <;> simp [h]

@[simp] theorem Plant.identifyEnter_agree {x : Plant} (h : x.ltu.records.agree) (e : Env) (a : Acc) (t : TaskNo)
    (r : Label) :
    (x.identifyEnter e a t r).ltu.records.agree := by
  unfold Plant.identifyEnter
  extract_lets unknownReel
  have hu : unknownReel.ltu.records.agree := by simp [unknownReel, h]
  split
  · exact hu
  next v _ =>
    have hm := Plant.moveVol_agree h v.serial (.gripper a)
    have hb := Plant.bound_agree hm v.serial (some t)
    have hr := fun u => Plant.resolve_agree hm e u true
    (repeat' split) <;> simp [↓Plant.updTask_records, -Plant.updVol_ltu, hu, hm, hb, hr]

@[simp] theorem Plant.identifyRecovery_agree {x : Plant} (h : x.ltu.records.agree) (e : Env) (a : Acc) (t : TaskNo)
    (r : Label) :
    (x.identifyRecovery e a t r).ltu.records.agree := by
  unfold Plant.identifyRecovery
  split
  · simp [h]
  next v _ =>
    have hb := Plant.bound_agree (Plant.moveFound_agree h v.serial (.gripper a)) v.serial (some t)
    split <;> simp [↓Plant.updTask_records, -Plant.updVol_ltu, h, hb]

@[simp] theorem Plant.identified_agree {x : Plant} (h : x.ltu.records.agree) (e : Env) (a : Acc) (t : TaskNo)
    (r : Label) :
    (x.identified e a t r).ltu.records.agree := by
  unfold Plant.identified; (repeat' split) <;> simp [h]

@[simp] theorem Plant.leaveUnread_agree {x : Plant} (h : x.ltu.records.agree) (e : Env) (t : Option TaskNo)
    (src : Location) (r : Option Label) :
    (x.leaveUnread e t src r).ltu.records.agree := by
  unfold Plant.leaveUnread; (repeat' split) <;> simp [h]

@[simp] theorem Plant.pickOutlived_agree {x : Plant} (h : x.ltu.records.agree) (e : Env) (a : Acc) (src : Location)
    (r : Label) :
    (x.pickOutlived e a src r).ltu.records.agree := by
  simp [Plant.pickOutlived, h]

@[simp] theorem Plant.pickSuperseded_agree {x : Plant} (h : x.ltu.records.agree) (e : Env) (a : Acc) (t : TaskNo)
    (l : Leg) (r : Label) :
    (x.pickSuperseded e a t l r).ltu.records.agree := by
  unfold Plant.pickSuperseded
  dsimp only
  (repeat' split) <;> simp [h]

@[simp] theorem Plant.pickDone_agree {x : Plant} (h : x.ltu.records.agree) (e : Env) (a : Acc) (r : Label) :
    (x.pickDone e a r).ltu.records.agree := by
  unfold Plant.pickDone
  extract_lets y
  have hy : y.ltu.records.agree := by simp [y, h]
  have hl := fun src t => Plant.leaveUnread_agree (x := y.legPicked a) (by simp [hy]) e (some t) src (some r)
  (repeat' split) <;> simp [hy, hl]

@[simp] theorem Plant.gripMissDone_agree {x : Plant} (h : x.ltu.records.agree) (e : Env) (a : Acc) :
    (x.gripMissDone e a).ltu.records.agree := by
  unfold Plant.gripMissDone
  extract_lets y
  have hy : y.ltu.records.agree := by simp [y, h]
  have hl := fun src t => Plant.vacate_agree (Plant.lostAt_agree hy t src) e (some t) src
  have hu := fun src t => Plant.leaveUnread_agree hy e (some t) src none
  (repeat' split) <;> simp [hy, hl, hu]

@[simp] theorem Plant.abandonMount_agree {x : Plant} (h : x.ltu.records.agree) (e : Env) (t : TaskNo) :
    (x.abandonMount e t).ltu.records.agree := by
  unfold Plant.abandonMount
  dsimp only
  (repeat' split) <;> simp [↓Plant.updTask_records, ↓Plant.updDrive_records, h]

@[simp] theorem Plant.cancelAtDrive_agree {x : Plant} (h : x.ltu.records.agree) (e : Env) (t : TaskNo) :
    (x.cancelAtDrive e t).ltu.records.agree := by
  simp [Plant.cancelAtDrive, h]

@[simp] theorem Plant.placedOnDrive_agree {x : Plant} (h : x.ltu.records.agree) (e : Env) (t : TaskNo) (d : DriveNo) :
    (x.placedOnDrive e t d).ltu.records.agree := by
  unfold Plant.placedOnDrive
  dsimp only
  (repeat' split) <;> simp [↓Plant.updTask_records, ↓Plant.updDrive_records, h]

@[simp] theorem Plant.foundFor_agree {x : Plant} (h : x.ltu.records.agree) (e : Env) (t : TaskNo) (via : Bool) :
    (x.foundFor e t via).ltu.records.agree := by
  unfold Plant.foundFor; (repeat' split) <;> simp [h]

@[simp] theorem Plant.handTo_agree {x : Plant} (h : x.ltu.records.agree) (e : Env) (n : Fin 8) (s : Serial)
    (fetched : Bool) :
    (x.handTo e n s fetched).ltu.records.agree := by
  unfold Plant.handTo
  dsimp only
  (repeat' split) <;> simp [↓Plant.setService_records, h]

@[simp] theorem Plant.carried_agree {x : Plant} (h : x.ltu.records.agree) (e : Env) (via : Bool) (g : Option Serial)
    (dst : Location) :
    (x.carried e via g dst).ltu.records.agree := by
  unfold Plant.carried; (repeat' split) <;> simp [h]

@[simp] theorem Plant.advance_agree {x : Plant} (h : x.ltu.records.agree) (e : Env) (t : TaskNo) (l : Leg)
    (via : Bool) (dst : Location) :
    (x.advance e t l via dst).ltu.records.agree := by
  unfold Plant.advance
  dsimp only
  (repeat' split) <;> simp [↓Plant.setService_records, h]

@[simp] theorem Plant.placeUnknown_agree {x : Plant} (h : x.ltu.records.agree) (dst : Location) :
    (x.placeUnknown dst).ltu.records.agree := by
  unfold Plant.placeUnknown; (repeat' split) <;> simp [h]

@[simp] theorem Plant.setDown_agree {x : Plant} (h : x.ltu.records.agree) (a : Acc) (dst : Location) :
    (x.setDown a dst).ltu.records.agree := by
  unfold Plant.setDown; (repeat' split) <;> simp [h]

@[simp] theorem Plant.placeDone_agree {x : Plant} (h : x.ltu.records.agree) (e : Env) (a : Acc) :
    (x.placeDone e a).ltu.records.agree := by
  unfold Plant.placeDone
  extract_lets g via y
  have hy : y.ltu.records.agree := by simp [y, h]
  have hz := fun dst => Plant.setDown_agree hy a dst
  clear_value g
  (repeat' split) <;> simp [hy, hz]

@[simp] theorem Plant.blockedSlot_agree {x : Plant} (h : x.ltu.records.agree) (t : TaskNo) (dst : Location) :
    (x.blockedSlot t dst).ltu.records.agree := by
  unfold Plant.blockedSlot; (repeat' split) <;> simp [h]

@[simp] theorem Plant.blockedTask_agree {x : Plant} (h : x.ltu.records.agree) (e : Env) (t : TaskNo) (l : Leg)
    (dst : Location) :
    (x.blockedTask e t l dst).ltu.records.agree := by
  unfold Plant.blockedTask; (repeat' split) <;> simp [h]

@[simp] theorem Plant.carryHome_agree {x : Plant} (h : x.ltu.records.agree) (e : Env) (a : Acc) (t : TaskNo)
    (live : Bool) :
    (x.carryHome e a t live).ltu.records.agree := by
  unfold Plant.carryHome
  dsimp only
  (repeat' split) <;> simp [h]

@[simp] theorem Plant.blockedCarry_agree {x : Plant} (h : x.ltu.records.agree) (e : Env) (a : Acc) (t : TaskNo)
    (live : Bool) (dst : Location) :
    (x.blockedCarry e a t live dst).ltu.records.agree := by
  unfold Plant.blockedCarry; (repeat' split) <;> simp [h]

@[simp] theorem Plant.blockedDone_agree {x : Plant} (h : x.ltu.records.agree) (e : Env) (a : Acc) :
    (x.blockedDone e a).ltu.records.agree := by
  unfold Plant.blockedDone; (repeat' split) <;> simp [h]

@[simp] theorem Plant.gateRefused_agree {x : Plant} (h : x.ltu.records.agree) (e : Env) (a : Acc) (t : TaskNo)
    (g : Gate) :
    (x.gateRefused e a t g).ltu.records.agree := by
  unfold Plant.gateRefused; (repeat' split) <;> simp [h]

@[simp] theorem Plant.placeStep_agree {x : Plant} (h : x.ltu.records.agree) (e : Env) (a : Acc) (l : Leg) (b : Nat)
    (dst : Location) :
    (x.placeStep e a l b dst).ltu.records.agree := by
  unfold Plant.placeStep
  dsimp only
  (repeat' split) <;> simp [h]

theorem Plant.travel_frame {e : Env} {a : Acc} {b : Nat} {x y : Plant} (hy : x.travel e a b = some y) :
    y.ltu = x.ltu ∧ y.tcu = x.tcu ∧ y.dru = x.dru ∧ y.pru = x.pru ∧ y.adu = x.adu ∧ y.mgu = x.mgu := by
  unfold Plant.travel at hy
  split at hy
  · split at hy
    · obtain rfl := Option.some.inj hy; simp
    · split at hy
      · cases hy
      · obtain rfl := Option.some.inj hy; simp
  · obtain rfl := Option.some.inj hy; simp

theorem Plant.auditStep_frame {e : Env} {a : Acc} {l : Leg} {x y : Plant} (hy : x.auditStep e a l = some y) :
    y.ltu = x.ltu ∧ y.tcu = x.tcu ∧ y.dru = x.dru ∧ y.pru = x.pru ∧ y.adu = x.adu ∧ y.mgu = x.mgu := by
  unfold Plant.auditStep at hy
  split at hy
  · obtain rfl := Option.some.inj hy; simp
  · exact Plant.travel_frame hy

theorem Plant.errand_frame {e : Env} {a : Acc} {x y : Plant} (hy : x.errand e a = some y) :
    y.ltu = x.ltu ∧ y.tcu = x.tcu ∧ y.dru = x.dru ∧ y.pru = x.pru ∧ y.adu = x.adu ∧ y.mgu = x.mgu := by
  unfold Plant.errand at hy
  dsimp only at hy
  (repeat' split at hy) <;> first | cases hy; done | (obtain rfl := Option.some.inj hy; simp)

theorem Plant.legStep_agree {x : Plant} (h : x.ltu.records.agree) {e : Env} {a : Acc} {l : Leg} {y : Plant}
    (hy : x.legStep e a l = some y) : y.ltu.records.agree := by
  have travel : ∀ b, x.travel e a b = some y → y.ltu.records.agree := fun b hb => by rw [(Plant.travel_frame hb).1]; exact h
  unfold Plant.legStep at hy
  dsimp only at hy
  split at hy
  · rw [(Plant.auditStep_frame hy).1]; exact h
  · (repeat' split at hy) <;> first | exact travel _ hy | (obtain rfl := Option.some.inj hy; simp [h])

theorem Plant.act_agree {x : Plant} (h : x.ltu.records.agree) {e : Env} {a : Acc} {y : Plant}
    (hy : x.act e a = some y) : y.ltu.records.agree := by
  unfold Plant.act at hy
  dsimp only at hy
  (repeat' split at hy) <;>
    first
    | cases hy; done
    | exact Plant.legStep_agree h hy
    | (rw [(Plant.errand_frame hy).1]; exact h)
    | (obtain rfl := Option.some.inj hy; simp [h])

theorem Plant.motion_agree (e : Env) : ∀ (n : Nat) {x : Plant}, x.ltu.records.agree → (x.motion e n).ltu.records.agree
  | 0, _, h => h
  | n + 1, x, h => by
    unfold Plant.motion
    split
    next y hy => exact motion_agree e n (Plant.act_agree h hy)
    · split
      next y hy => exact motion_agree e n (Plant.act_agree h hy)
      · exact h

@[simp] theorem Plant.settleRound_agree {x : Plant} (h : x.ltu.records.agree) (e : Env) :
    (x.settleRound e).ltu.records.agree := by
  have hs := Plant.serveWaiters_agree e 64 h
  exact Plant.motion_agree e 64 (by simp [hs])

@[simp] theorem Plant.settle_agree {x : Plant} (h : x.ltu.records.agree) (e : Env) :
    (x.settle e).ltu.records.agree := by
  have hs := Plant.settleRound_agree (Plant.settleRound_agree (Plant.settleRound_agree h e) e) e
  simp [Plant.settle, hs]

@[simp] theorem Plant.dropCarry_agree {x : Plant} (h : x.ltu.records.agree) (e : Env) (dst : Option Location) :
    (x.dropCarry e dst).ltu.records.agree := by
  unfold Plant.dropCarry; (repeat' split) <;> simp [h]

@[simp] theorem Plant.faultLeg_agree {x : Plant} (h : x.ltu.records.agree) (e : Env) (a : Acc) (l : Option Leg)
    (ending : Bool) (n : Nat) :
    (x.faultLeg e a l ending n).ltu.records.agree := by
  unfold Plant.faultLeg; (repeat' split) <;> simp [h]

@[simp] theorem Plant.fault_agree {x : Plant} (h : x.ltu.records.agree) (e : Env) (a : Acc) (f : FaultCode) :
    (x.fault e a f).ltu.records.agree := by
  simp [Plant.fault, h]

@[simp] theorem Plant.arrive_agree {x : Plant} (h : x.ltu.records.agree) (e : Env) (a : Acc) (b : Nat) :
    (x.arrive e a b).ltu.records.agree := by
  unfold Plant.arrive
  dsimp only
  (repeat' split) <;> simp [h]

theorem Plant.judgeReadings_agree (e : Env) (a : Acc) (l : ListNo) (bay : Nat) : ∀ (rs : List Reading) (p : Nat)
    {x : Plant},
    x.ltu.records.agree → (x.judgeReadings e a l bay p rs).ltu.records.agree
  | [], _, _, h => h
  | r :: rs, p, _, h => judgeReadings_agree e a l bay rs (p + 1) (Plant.judgeReading_agree h e a l (bay * 16 + p) r)

@[simp] theorem Plant.readDone_agree {x : Plant} (h : x.ltu.records.agree) (e : Env) (a : Acc) (bay first last : Nat)
    (rs : List Reading) :
    (x.readDone e a bay first last rs).ltu.records.agree := by
  have hj := fun n g p => Plant.judgeReadings_agree e a n bay rs first
    (x := (x.updAcc a ({ · with step := none, leg := some g })).updList n ({ · with pos := p })) (by simp [h])
  unfold Plant.readDone
  dsimp only
  (repeat' split) <;> simp [h, hj]

@[simp] theorem Plant.notInGripper_agree {x : Plant} (h : x.ltu.records.agree) (e : Env) (a : Acc) (g : Option Serial) :
    (x.notInGripper e a g).ltu.records.agree := by
  unfold Plant.notInGripper
  dsimp only
  (repeat' split) <;> simp [h]

@[simp] theorem Plant.goOn_agree {x : Plant} (h : x.ltu.records.agree) (e : Env) (t : TaskNo) :
    (x.goOn e t).ltu.records.agree := by
  unfold Plant.goOn; (repeat' split) <;> simp [h]

@[simp] theorem Plant.pickByRecover_agree {x : Plant} (h : x.ltu.records.agree) (e : Env) (a : Acc) (t : TaskNo)
    (s : Serial) (src : Location) (w : Option Work) :
    (x.pickByRecover e a t s src w).ltu.records.agree := by
  unfold Plant.pickByRecover; (repeat' split) <;> simp [h]

@[simp] theorem Plant.settleKnown_agree {x : Plant} (h : x.ltu.records.agree) (e : Env) (a : Acc) (r : Option Label)
    (t : TaskNo) (k : Task) (s : Serial) :
    (x.settleKnown e a r t k s).1.ltu.records.agree := by
  have hp := fun src => Plant.offerSlots_agree (Plant.pickByRecover_agree h e a t s src k.work) e
  unfold Plant.settleKnown
  dsimp only
  (repeat' split) <;> simp [h, hp]

@[simp] theorem Plant.settleReel_agree {x : Plant} (h : x.ltu.records.agree) (e : Env) (a : Acc) (r : Option Label)
    (t : TaskNo) (k : Task) :
    (x.settleReel e a r t k).1.ltu.records.agree := by
  have hl := fun src l v => Plant.leaveUnread_agree (x := x.updAcc a ({ · with viaEntry := v })) (by simp [h]) e
      (some t) src (some l)
  unfold Plant.settleReel
  dsimp only
  (repeat' split) <;> simp [h, hl]

@[simp] theorem Plant.settleTask_agree {x : Plant} (h : x.ltu.records.agree) (e : Env) (a : Acc) (r : Option Label)
    (t : TaskNo) :
    (x.settleTask e a r t).1.ltu.records.agree := by
  unfold Plant.settleTask
  dsimp only
  (repeat' split) <;> simp [↓Plant.updTask_records, h]

@[simp] theorem Plant.foundInGripper_agree {x : Plant} (h : x.ltu.records.agree) (e : Env) (a : Acc) (l : Label) :
    (x.foundInGripper e a l).ltu.records.agree := by
  unfold Plant.foundInGripper
  dsimp only
  (repeat' split) <;> simp [h]

@[simp] theorem Plant.recovered_agree {x : Plant} (h : x.ltu.records.agree) (e : Env) (a : Acc) (bay : Nat)
    (g : Reading) :
    (x.recovered e a bay g).ltu.records.agree := by
  unfold Plant.recovered
  extract_lets y1 _ y2 r y3 y4 y5
  have h1 : y1.ltu.records.agree := by simp [y1, h]
  have h2 : y2.ltu.records.agree := by simp only [y2]; (repeat' split) <;> simp [h1]
  have h3 : y3.ltu.records.agree := by simp only [y3, r]; split <;> simp [h2]
  have h4 : y5.ltu.records.agree := by simp [y5, y4, h3]
  have fold := foldl_preserves (p := fun q : Plant × Bool => q.1.ltu.records.agree)
    (f := fun (p : Plant × Bool) t => let q := p.1.settleTask e a r t; (q.1, p.2 || q.2))
    (fun q t hq => Plant.settleTask_agree hq e a r t) (y5.faultedOn a) (x := (y5, false)) h4
  split
  extract_lets z w
  clear_value r
  have hz : z.ltu.records.agree := Plant.notInGripper_agree (by simp_all) e a _
  have hw : w.ltu.records.agree := by simp only [w]; (repeat' split) <;> simp [hz]
  simp [hw]

@[simp] theorem Plant.cancelTask_agree {x : Plant} (h : x.ltu.records.agree) (e : Env) (t : TaskNo) (k : Task) :
    (x.cancelTask e t k).ltu.records.agree := by
  unfold Plant.cancelTask; (repeat' split) <;> simp [h]

/-- A volume not held yet finds room in the table. -/
def Plant.Roomy (s : Serial) (x : Plant) : Prop := x.vol? s = none → x.ltu.volumes.length < 4096

theorem Plant.bindVolume_agree {x : Plant} (h : x.ltu.records.agree) {s : Serial} (t : TaskNo) (hs : x.Roomy s) :
    (x.bindVolume s t).ltu.records.agree := by
  unfold Plant.bindVolume
  split
  · exact Plant.updVol_agree_of_pending h (fun _ => by simp) fun _ => id
  next hn => exact (Plant.agree_iff _).mp (((Plant.agree_iff x).mpr h).putVisitor t hn (hs hn))

@[simp] theorem Plant.startMount_agree {x : Plant} (h : x.ltu.records.agree) (e : Env) (t : TaskNo) (d : DriveNo) :
    (x.startMount e t d).ltu.records.agree := by
  unfold Plant.startMount; (repeat' split) <;> simp [h]

theorem Plant.bindAndStart_agree {x : Plant} (h : x.ltu.records.agree) (e : Env) (t : TaskNo) (d : DriveNo) {s : Serial}
    (reached : Bool) (acct : Byte) (hs : x.Roomy s) : (x.bindAndStart e t d s reached acct).ltu.records.agree := by
  have hb := Plant.bindVolume_agree h t hs
  unfold Plant.bindAndStart
  dsimp only
  split <;> simp [hb]

theorem Plant.walkPool_held {e : Env} {r : Ring} {x : Plant} {s : Serial} (h : x.walkPool e r = some s) :
    x.vol? s ≠ none := by
  have := List.find?_some h
  intro hn
  simp [hn] at this

/-- An order that passes the checks is for a volume of the table, or finds room for a visitor (R46 check 4). -/
theorem Plant.check_roomy {e : Env} {p : Path} {o : QOrder} {x : Plant} {s : Serial} (h : x.check e p o = .ok s) :
    x.Roomy s := by
  intro hn
  unfold Plant.check at h
  split at h
  · cases h
  · split at h
    · split at h
      · cases h
      next ha =>
        obtain rfl := Except.ok.inj h
        simp only [Plant.admitsVolume, hn] at ha
        split at ha
        · cases ha
        next hf => simpa [Plant.tableFull] using hf
    · split at h
      next hw =>
        obtain rfl := Except.ok.inj h
        exact absurd hn ((Option.or_eq_some_iff.mp hw).elim Plant.walkPool_held fun g => Plant.walkPool_held g.2)
      · cases h


theorem Plant.admission_agree {x : Plant} (h : x.ltu.records.agree) (e : Env) (t : TaskNo) (p : Path) (o : QOrder)
    (reached : Bool) : (x.admission e t p o reached).ltu.records.agree := by
  unfold Plant.admission
  split
  · simp [h]
  next s hs =>
    have room : (x.newTask t (Task.ofOrder p o s e.tick)).Roomy s := by
      simpa [Plant.Roomy, Plant.vol?] using Plant.check_roomy hs
    exact Plant.bindAndStart_agree (by simp [h]) e t o.drive reached o.account room

@[simp] theorem Plant.takeUpVolume_agree {x : Plant} (h : x.ltu.records.agree) (e : Env) (t : TaskNo) (s : Serial) :
    (x.takeUpVolume e t s).ltu.records.agree := by
  have hb := Plant.bound_agree h s (some t)
  simp [↓Plant.updTask_records, Plant.takeUpVolume, -Plant.updVol_ltu, hb]


@[simp] theorem Plant.planRecovery_agree {x : Plant} (h : x.ltu.records.agree) (e : Env) (t : TaskNo) (r : Request) :
    (x.planRecovery e t r).ltu.records.agree := by
  unfold Plant.planRecovery; (repeat' split) <;> simp [h]

@[simp] theorem Plant.ejectTask_agree {x : Plant} (h : x.ltu.records.agree) (e : Env) (g : Hdr) (t : TaskNo)
    (s : Serial) :
    (x.ejectTask e g t s).ltu.records.agree := by
  have hb := Plant.bound_agree (x := x.newTask t { Task.new .eject .management e.tick with serial := some s })
    (by simp [h]) s (some t)
  simp [Plant.ejectTask, -Plant.updVol_ltu, hb]

@[simp] theorem Plant.unscratch_agree {x : Plant} (h : x.ltu.records.agree) (s : Serial) :
    (x.unscratch s).ltu.records.agree := by
  have ha := (Plant.agree_iff x).mpr h
  refine (Plant.agree_iff _).mp ?_
  cases hv : x.vol? s with
  | none =>
    have hs : s ∉ x.ltu.pool := by simp [ha.scratch, hv]
    refine ha.of_map_loc (f := fun v => if v.serial = s then { v with scratch := false } else v) rfl
      (fun v => by split <;> rfl) (fun q v hq => ?_) (List.filter_eq_self.mpr fun q hq => ?_) rfl
    · have hn : v.serial ≠ s := fun e => by simp [← e, Plant.vol?_serial hq, hq] at hv
      simp [hn]
    · simpa using fun e : q = s => hs (e ▸ hq)
  | some v => exact ha.flag hv (f := ({ · with scratch := false })) (fun _ => by simp)

@[simp] theorem Plant.mounted_agree {x : Plant} (h : x.ltu.records.agree) (e : Env) (t : TaskNo) (d : DriveNo) :
    (x.mounted e t d).ltu.records.agree := by
  unfold Plant.mounted; (repeat' split) <;> simp [h]

@[simp] theorem Plant.readyMount_agree {x : Plant} (h : x.ltu.records.agree) (e : Env) (d : DriveNo) (t : TaskNo) :
    (x.readyMount e d t).ltu.records.agree := by
  simp [Plant.readyMount, h]

@[simp] theorem Plant.ready_agree {x : Plant} (h : x.ltu.records.agree) (e : Env) (d : DriveNo) :
    (x.ready e d).ltu.records.agree := by
  unfold Plant.ready
  dsimp only
  (repeat' split) <;> simp [h]

@[simp] theorem Plant.countFailure_agree {x : Plant} (h : x.ltu.records.agree) (e : Env) (s : Serial) (d : DriveNo) :
    (x.countFailure e s d).ltu.records.agree := by
  have hw := Plant.updVol_agree_of_pending h (s := s) (f := fun v => { v with fails := satAdd 255 v.fails 1 })
    (fun _ => by simp) fun _ => id
  exact Plant.judgeWorn_agree hw e s d _

@[simp] theorem Plant.threadFailure_agree {x : Plant} (h : x.ltu.records.agree) (e : Env) (d : DriveNo) (t : TaskNo) :
    (x.threadFailure e d t).ltu.records.agree := by
  unfold Plant.threadFailure; (repeat' split) <;> simp [h]

@[simp] theorem Plant.threadFail_agree {x : Plant} (h : x.ltu.records.agree) (e : Env) (d : DriveNo) :
    (x.threadFail e d).ltu.records.agree := by
  unfold Plant.threadFail
  dsimp only
  (repeat' split) <;> simp [h]

theorem closeMount_agree (e : Env) (t : TaskNo) (d : DriveNo) (n : Counters) (a : Acu) {x : Plant}
    (h : x.ltu.records.agree) :
    (closeMount e t d n a x).2.ltu.records.agree := by
  unfold closeMount
  split
  · exact h
  split
  · exact h
  extract_lets acct r occ m s c x1 a1 x2 x3 x4 u a2
  have h1 : x1.ltu.records.agree := by simp only [x1]; split <;> simp [h]
  have h2 : x2.ltu.records.agree := by simp only [x2]; split <;> simp [h1]
  have h3 : x3.ltu.records.agree := by simp only [x3]; split <;> simp [h2]
  have h4 : x4.ltu.records.agree := by simp [x4, h3]
  dsimp only
  split <;> simp [h4]

@[simp] theorem Plant.toDemount_agree {x : Plant} (h : x.ltu.records.agree) (e : Env) (t : TaskNo) :
    (x.toDemount e t).ltu.records.agree := by
  simp [↓Plant.updTask_records, Plant.toDemount, h]

theorem unloadedAt_agree (e : Env) (d : DriveNo) (n : Counters) (a : Acu) {x : Plant} (h : x.ltu.records.agree) :
    (unloadedAt e d n a x).2.ltu.records.agree := by
  have hc := fun t => closeMount_agree e t d n a (x := x.updDrive d
      ({ · with state := .unloaded, unloadSeen := true })) (by simp [h])
  unfold unloadedAt
  dsimp only
  (repeat' split) <;> simp [↓Plant.updDrive_records, h, hc]

@[simp] theorem Plant.answerRing_agree {x : Plant} (h : x.ltu.records.agree) (e : Env) (t : TaskNo) (w : Answer) :
    (x.answerRing e t w).ltu.records.agree := by
  have hr := fun s => Plant.updVol_agree_of_pending h (s := s) (f := ({ · with ring := .ringed })) (fun _ => by simp)
      fun _ => id
  unfold Plant.answerRing
  (repeat' split) <;> simp [↓Plant.updTask_records, -Plant.updVol_ltu, h, hr]

@[simp] theorem Plant.answerRingPull_agree {x : Plant} (h : x.ltu.records.agree) (e : Env) (t : TaskNo) (w : Answer) :
    (x.answerRingPull e t w).ltu.records.agree := by
  have hr := fun s => Plant.updVol_agree_of_pending h (s := s) (f := ({ · with ring := .ringless }))
      (fun _ => by simp) fun _ => id
  unfold Plant.answerRingPull
  (repeat' split) <;> simp [↓Plant.updTask_records, -Plant.updVol_ltu, h, hr]

@[simp] theorem Plant.takenOut_agree {x : Plant} (h : x.ltu.records.agree) (n : Fin 8) :
    (x.takenOut n).ltu.records.agree := by
  unfold Plant.takenOut
  dsimp only
  (repeat' split) <;> simp [↓Plant.setService_records, h]

@[simp] theorem Plant.answerRemoved_agree {x : Plant} (h : x.ltu.records.agree) (e : Env) (t : TaskNo)
    (slot : Option Location) :
    (x.answerRemoved e t slot).ltu.records.agree := by
  unfold Plant.answerRemoved; (repeat' split) <;> simp [h]

@[simp] theorem Plant.answerThreadFail_agree {x : Plant} (h : x.ltu.records.agree) (e : Env) (t : TaskNo) (w : Answer) :
    (x.answerThreadFail e t w).ltu.records.agree := by
  unfold Plant.answerThreadFail
  dsimp only
  (repeat' split) <;> simp [↓Plant.updTask_records, ↓Plant.updDrive_records, h]

@[simp] theorem Plant.answerAllowance_agree {x : Plant} (h : x.ltu.records.agree) (e : Env) (t : TaskNo) (w : Answer) :
    (x.answerAllowance e t w).ltu.records.agree := by
  unfold Plant.answerAllowance
  dsimp only
  (repeat' split) <;> simp [h]

@[simp] theorem Plant.answerForeignCell_agree {x : Plant} (h : x.ltu.records.agree) (c : Option CellNo) :
    (x.answerForeignCell c).ltu.records.agree := by
  unfold Plant.answerForeignCell; (repeat' split) <;> simp [h]

@[simp] theorem Plant.deliver_agree {x : Plant} (h : x.ltu.records.agree) (e : Env) (p : Prompt) (w : Answer) :
    (x.deliver e p w).ltu.records.agree := by
  unfold Plant.deliver; (repeat' split) <;> simp [h]

/-- What the owner of a closing prompt does keeps the tables, and so does the close (R151). -/
theorem Plant.closing_agree {x : Plant} (h : x.ltu.records.agree) (e : Env) (n : Nat) {act : Plant → Plant}
    (ha : ∀ y : Plant, y.ltu.records.agree → (act y).ltu.records.agree) : (x.closing e n act).ltu.records.agree := by
  unfold Plant.closing
  extract_lets z _ y
  have hy : y.ltu.records.agree := ha _ (by simp [z, h])
  simp [hy]

@[simp] theorem Plant.close_agree {x : Plant} (h : x.ltu.records.agree) (e : Env) (p : Prompt) (w : Answer) :
    (x.close e p w).ltu.records.agree := by
  exact Plant.closing_agree h e p.number fun y hy => by simp [hy]


@[simp] theorem Plant.claimed_agree {x : Plant} (h : x.ltu.records.agree) (e : Env) (t : TaskNo) (n : Fin 8)
    (s : Serial) :
    (x.claimed e t n s).ltu.records.agree := by
  simp [↓Plant.setEntry_records, Plant.claimed, h]

@[simp] theorem Plant.claimEntry_agree {x : Plant} (h : x.ltu.records.agree) (e : Env) (t : TaskNo) (n : Fin 8)
    (p : Prompt) :
    (x.claimEntry e t n p).ltu.records.agree := by
  unfold Plant.claimEntry
  split
  · exact h
  · exact Plant.closing_agree h e p.number fun y hy => by simp [hy]

/-- The home that the checks of LOAD VOLUME grant is home to no other volume (R10 checks 7 and 8). -/
theorem Plant.loadHome_homeOf {l : VolumeLoad} {x : Plant} {c : CellNo} (h : x.loadHome l = .ok c) {q : Serial}
    (hq : (x.cell c).homeOf = some q) : q = l.serial := by
  unfold Plant.loadHome at h
  extract_lets chosen otherHome at h
  have hc : ∀ d, chosen = .ok d → (x.cell d).homeOf = none := fun d hd => by
    simp only [chosen] at hd
    split at hd
    next f hf =>
      obtain rfl := Except.ok.inj hd
      have := List.find?_some (p := fun c => decide ((x.cell c).occ = .empty ∧ (x.cell c).homeOf = none)) hf
      exact (of_decide_eq_true this).2
    · cases hd
  have ho : ∀ d, ¬ otherHome d = true → (x.cell d).homeOf = some q → q = l.serial := fun d hd he => by
    simpa [otherHome, he] using hd
  have choose : chosen = .ok c → q = l.serial := fun hd => by simp [hc c hd] at hq
  split at h
  · split at h
    · cases h
    split at h
    · cases h
    next hn => obtain rfl := Except.ok.inj h; exact ho _ hn hq
  · exact choose h
  · split at h
    · split at h
      · exact choose h
      next hn => obtain rfl := Except.ok.inj h; exact ho _ hn hq
    · exact choose h

theorem Plant.loadChecks_ok {l : VolumeLoad} {x : Plant} {home : Option CellNo} (h : x.loadChecks l = .ok home) :
    (∀ c q, home = some c → (x.cell c).homeOf = some q → q = l.serial)
      ∧ (x.vol? l.serial = none → x.ltu.volumes.length < 4096) := by
  unfold Plant.loadChecks at h
  dsimp only at h
  split at h
  · cases h
  split at h
  · cases h
  split at h
  · cases h
  next hf =>
    refine ⟨fun c q hc hq => ?_, fun hn => by simpa [hn, Plant.tableFull] using hf⟩
    split at h
    · cases h
    split at h
    · subst hc
      (repeat' split at h) <;> simp at h
    · cases hl : x.loadHome l with
      | error r => simp [hl, Except.map] at h
      | ok d =>
        obtain rfl : d = c := by simpa [hl, Except.map, hc] using h
        exact Plant.loadHome_homeOf hl hq

/-- The cell of a FOREIGN reel that LOAD VOLUME puts a volume in. -/
def Plant.foreignOf (l : VolumeLoad) (x : Plant) : Option CellNo :=
  match l.loc with
  | .cell c => if (x.cell c).occ = .foreign then some c else none
  | _ => none

/-- LOAD VOLUME writes the tables, closes the prompt of the cell, and makes the refile request. -/
theorem Plant.loadVolume_eq (e : Env) (f : VolumeFields) (l : VolumeLoad) (home : Option CellNo) (x : Plant) :
    x.loadVolume e f l home =
      (match x.foreignOf l with
        | some c => (x.loadTables f l home).resolveForeign e c
        | none => x.loadTables f l home).refileRequest e l.serial := rfl

theorem Plant.loadVolume_agree {x : Plant} (h : x.ltu.records.agree) (e : Env) (f : VolumeFields) {l : VolumeLoad}
    {home : Option CellNo} (hl : x.loadChecks l = .ok home) : (x.loadVolume e f l home).ltu.records.agree := by
  obtain ⟨hh, hn⟩ := Plant.loadChecks_ok hl
  have ht := (Plant.agree_iff _).mp (((Plant.agree_iff x).mpr h).loadTables f hh hn)
  rw [Plant.loadVolume_eq]
  split <;> simp [ht]

theorem restartTask_agree (e : Env) (t : TaskNo) (a : Acu) {x : Plant} (h : x.ltu.records.agree) :
    (restartTask e t a x).2.ltu.records.agree := by
  have hc := fun d => closeMount_agree e t d ⟨0, 0, 0⟩ a (x := x.tag t .restartClosed) (by simp [h])
  unfold restartTask
  dsimp only
  (repeat' split) <;> simp [h, hc]

theorem restartTasks_agree (e : Env) (a : Acu) {x : Plant} (h : x.ltu.records.agree) :
    (restartTasks e a x).2.ltu.records.agree := by
  unfold restartTasks
  generalize List.finRange 48 = l
  exact foldl_preserves (p := fun c : Acu × Plant => c.2.ltu.records.agree) (fun c t hc => restartTask_agree e t c.1 hc)
    l (x := (a, x)) h

@[simp] theorem Plant.restartBlocks_agree {x : Plant} (h : x.ltu.records.agree) (e : Env) :
    (x.restartBlocks e).ltu.records.agree := by
  have hr : x.ltu.restarted.records.agree :=
    (Plant.agree_iff { x with ltu := x.ltu.restarted }).mp (((Plant.agree_iff x).mpr h).restarted rfl)
  simp [Plant.restartBlocks, hr]

end Sys2Proof.Machine
end

section
/-!
PROOFS. Every command keeps the library tables in agreement (O14).
-/
namespace Sys2Proof.Machine

/-! ### Every command keeps the library tables in agreement -/

/-- A change of the state that keeps the tables in agreement. -/
def State.Keeps (f : State → State) : Prop := ∀ s : State, s.plant.ltu.records.agree → (f s).plant.ltu.records.agree

/-- An outcome whose state, where there is one, has its tables in agreement. -/
def Tabled (o : Host.Outcome State Fault Refusal) : Prop := ∀ t, o = .next t → t.plant.ltu.records.agree

theorem Tabled.next {s : State} (hs : s.plant.ltu.records.agree) : Tabled (.next s) := fun _ ht =>
  Host.Outcome.next.inj ht ▸ hs

theorem State.run_tabled {s : State} {f : State → State} (hs : s.plant.ltu.records.agree) (hf : State.Keeps f) :
    Tabled (s.run f) := by
  refine Tabled.next ?_
  split
  · exact hs
  · exact hf s hs

theorem State.keeps_moving {f : Env → Plant → Plant}
    (hf : ∀ e (x : Plant), x.ltu.records.agree → (f e x).ltu.records.agree) :
    State.Keeps (State.moving f) := fun s hs => by simp [hf s.env s.plant hs]

theorem State.keeps_plantly {f : Env → Plant → Plant}
    (hf : ∀ e (x : Plant), x.ltu.records.agree → (f e x).ltu.records.agree) :
    State.Keeps (State.plantly f) := fun s hs => hf s.env s.plant hs

theorem State.keeps_manage (h : Hdr) {f : State → State} (hf : State.Keeps f) : State.Keeps
    (State.manage h f) := fun s hs => by
  unfold State.manage
  (repeat' split) <;> simp [hs, hf s hs]

theorem State.mgmt_tabled {h : Hdr} {s : State} {f : State → State} (hs : s.plant.ltu.records.agree)
    (hf : State.Keeps f) :
    Tabled (s.mgmt h f) := State.run_tabled hs (State.keeps_manage h hf)

theorem State.keeps_given {α : Type} (h : Hdr) (o : Option α) {f : α → State → State} (hf : ∀ a, State.Keeps (f a)) :
    State.Keeps (State.given h o f) := fun s hs => by
  cases o with
  | none => simp [hs]
  | some a => exact hf a s hs

theorem State.keeps_setting (h : Hdr) (f : Settings → Settings) : State.Keeps
    (State.setting h f) := fun s hs => by simp [hs]

theorem State.keeps_arrive (h : Hdr) (w k : Bool) {f : State → State} (hf : State.Keeps f) :
    State.Keeps (State.arrive h w k f) := fun s hs => by
  unfold State.arrive
  (repeat' split) <;> simp [hs, hf s hs]

theorem State.keeps_report (a : Acc) (tag : Byte) {f : StepKind → Option (Env → Plant → Plant)}
    (hf : ∀ k g, f k = some g → ∀ e (x : Plant), x.ltu.records.agree → (g e x).ltu.records.agree) :
    State.Keeps (State.report a tag f) := fun s hs => by
  unfold State.report
  split
  next g hg =>
    obtain ⟨k, -, hk⟩ := Option.bind_eq_some_iff.mp hg
    exact State.keeps_moving (hf k g hk) s hs
  · simp [hs]

theorem State.keeps_driveReport {f : State → State} (hf : State.Keeps f) : State.Keeps
    (State.driveReport f) := fun s hs => by
  unfold State.driveReport
  split
  · exact hs
  · exact hf s hs

@[simp] theorem Plant.beep_ltu (c : Console) (x : Plant) : (x.beep c).ltu = x.ltu := by cases c <;> rfl

theorem State.keeps_answering (k : Keyed) {f : Prompt → State → State} (hf : ∀ p, State.Keeps (f p)) :
    State.Keeps (State.answering k f) := fun s hs => by
  unfold State.answering
  dsimp only
  (repeat' split) <;> simp [hs, hf _ s hs]

theorem State.keeps_keyed (c : Console) {f : State → State} (hf : State.Keeps f) : State.Keeps
    (State.keyed c f) := fun s hs => by
  unfold State.keyed
  split <;> simp [hs, hf s hs]

theorem State.keeps_switched (c : Console) (p : KeySwitch) : State.Keeps (State.switched c p) := fun s hs => by
  cases c <;> exact hs

@[simp] theorem State.holdChanged_agree {s : State} (h : s.plant.ltu.records.agree) :
    s.holdChanged.plant.ltu.records.agree := by
  simp [State.holdChanged, h]

@[simp] theorem State.judgePace_ltu (p : Path) (s : State) : (s.judgePace p).plant.ltu = s.plant.ltu := by
  unfold State.judgePace
  dsimp only
  (repeat' split) <;> simp

@[simp] theorem State.judgeAllPaces_ltu (s : State) : s.judgeAllPaces.plant.ltu = s.plant.ltu :=
  foldl_keeps (fun s : State => s.plant.ltu) (fun s p => s.judgePace_ltu p) _ s

@[simp] theorem State.enqueue_ltu (h : Hdr) (q : QOrder) (s : State) : (s.enqueue h q).plant.ltu = s.plant.ltu := by
  simp [State.enqueue]

@[simp] theorem State.cancelQueued_ltu (h : Hdr) (b : Byte) (s : State) :
    (s.cancelQueued h b).plant.ltu = s.plant.ltu := by
  simp [State.cancelQueued]

@[simp] theorem State.judgeTrigger_ltu (n m : Nat) (s : State) : (s.judgeTrigger n m).plant.ltu = s.plant.ltu := by
  unfold State.judgeTrigger
  split <;> simp

@[simp] theorem State.takeRecords_ltu (h : Hdr) (k : Nat) (s : State) :
    (s.takeRecords h k).plant.ltu = s.plant.ltu := by
  unfold State.takeRecords
  dsimp only
  split <;> simp

@[simp] theorem State.quietExpired_ltu (s : State) : s.quietExpired.plant.ltu = s.plant.ltu := by
  unfold State.quietExpired
  dsimp only
  split <;> simp

@[simp] theorem State.linkError_ltu (l : Link) (s : State) : (s.linkError l).plant.ltu = s.plant.ltu := by
  unfold State.linkError
  cases l <;> dsimp only <;> split <;> simp

@[simp] theorem State.applyImage_ltu (i : Image) (o : ImageOutcome) (b : Bool) (s : State) :
    (s.applyImage i o b).plant.ltu = s.plant.ltu := by
  unfold State.applyImage
  simp only [State.plantly_plant]
  split <;> simp

@[simp] theorem State.badImage_ltu (s : State) : s.badImage.plant.ltu = s.plant.ltu := by simp [State.badImage]

theorem State.starting_ltu (f : Fence) (strap : Bool) (s : State) : (s.starting f strap).plant.ltu = Ltu.boot := by
  unfold State.starting
  dsimp only
  split
  · simp [Plant.boot]
  · rfl

theorem State.starting_agree (f : Fence) (strap : Bool) (s : State) : (s.starting f strap).plant.ltu.records.agree :=
  (Plant.agree_iff _).mp (Plant.Agree.boot (s.starting_ltu f strap))

theorem State.keeps_done (k : Keyed) (p : Prompt) : State.Keeps (State.done k p) := fun s hs => by
  unfold State.done
  dsimp only
  (repeat' split) <;> simp [hs]

theorem State.flushQueues_ltu (s : State) : s.flushQueues.plant.ltu = s.plant.ltu :=
  foldl_keeps (fun s : State => s.plant.ltu)
    (fun y p => foldl_keeps (fun s : State => s.plant.ltu) (fun z o => by simp) _ y) _ s

theorem State.resumePaths_ltu (s : State) : s.resumePaths.plant.ltu = s.plant.ltu := by
  have fold := foldl_keeps (fun s : State => s.plant.ltu)
    (f := fun y (p : Path) => if s.oiu.paced.get p then y.pathStatus p .resume else y)
    (fun y p => by split <;> simp) [0, 1, 2, 3] s
  exact fold

theorem State.restarted_agree {s : State} (h : Hdr) (hs : s.plant.ltu.records.agree) :
    (s.restarted h).plant.ltu.records.agree := by
  unfold State.restarted
  extract_lets _ _ s1 s2 s3
  have h2 : s2.plant.ltu.records.agree := restartTasks_agree s1.env s1.acu hs
  have h3 : s3.plant.ltu.records.agree := by
    simp only [s3, State.resumePaths_ltu, State.flushQueues_ltu]; exact h2
  simp [h3]

section Commands
variable {s : State} (hs : s.plant.ltu.records.agree)
include hs

omit hs in
theorem execPowerOn_tabled (strap : Bool) : Tabled (execPowerOn strap s) := by
  exact Tabled.next (State.starting_agree _ _ s)

omit hs in
theorem execHardReset_tabled (strap : Bool) : Tabled (execHardReset strap s) := by
  exact Tabled.next (State.starting_agree _ _ s)

theorem execImageRead_tabled (image : List Byte) : Tabled (execImageRead image s) := by
  refine State.run_tabled hs fun s hs => ?_
  dsimp only
  (repeat' split) <;> simp [hs]

theorem execImageReadTimeout_tabled : Tabled (execImageReadTimeout s) := by
  refine State.run_tabled hs fun s hs => ?_
  (repeat' split) <;> simp [hs]

theorem execDayClockMinute_tabled : Tabled (execDayClockMinute s) := by
  refine State.run_tabled hs fun s hs => ?_
  (repeat' split) <;> simp [hs]

theorem execMalformedFrame_tabled (l : Link) (bytes : List Byte) : Tabled (execMalformedFrame l bytes s) := by
  refine State.run_tabled hs fun s hs => ?_
  (repeat' split) <;> simp [hs]

theorem execMount_tabled (h : Hdr) (serial : List Byte) (drive intent account : Byte) :
    Tabled (execMount h serial drive intent account s) := by
  refine State.run_tabled hs fun s hs => ?_
  split
  · exact State.keeps_arrive _ _ _ (fun s hs => by simp [hs]) s hs
  · exact State.keeps_arrive _ _ _ (fun s hs => hs) s hs

theorem execMountScratch_tabled (h : Hdr) (drive account : Byte) : Tabled (execMountScratch h drive account s) := by
  refine State.run_tabled hs fun s hs => ?_
  split
  · exact State.keeps_arrive _ _ _ (fun s hs => by simp [hs]) s hs
  · exact State.keeps_arrive _ _ _ (fun s hs => hs) s hs

theorem execDismount_tabled (h : Hdr) (drive : Byte) : Tabled (execDismount h drive s) := by
  refine State.run_tabled hs fun s hs => ?_
  split
  · exact State.keeps_arrive _ _ _ (fun s hs => by extract_lets r; (repeat' split) <;> simp [hs]) s hs
  · exact State.keeps_arrive _ _ _ (fun s hs => hs) s hs

theorem execCancel_tabled (h : Hdr) (target : Byte) : Tabled (execCancel h target s) := by
  exact State.run_tabled hs (State.keeps_arrive _ _ _ fun s hs => by
      (repeat' split) <;> simp [↓Plant.status_records, hs])

theorem execQueryVolume_tabled (h : Hdr) (serial : List Byte) : Tabled (execQueryVolume h serial s) := by
  refine State.run_tabled hs fun s hs => ?_
  split
  · exact State.keeps_arrive _ _ _ (fun s hs => by split <;> simp [hs]) s hs
  · exact State.keeps_arrive _ _ _ (fun s hs => hs) s hs

theorem execQueryDrive_tabled (h : Hdr) (drive : Byte) : Tabled (execQueryDrive h drive s) := by
  refine State.run_tabled hs fun s hs => ?_
  split
  · exact State.keeps_arrive _ _ _ (fun s hs => by extract_lets r; (repeat' split) <;> simp [hs]) s hs
  · exact State.keeps_arrive _ _ _ (fun s hs => hs) s hs

theorem execAdmission_tabled : Tabled (execAdmission s) := by
  refine State.run_tabled hs fun s hs => ?_
  split
  · exact hs
  · split
    · split
      · exact hs
      · have ha := fun (x : Plant) hx t p o r => Plant.admission_agree (x := x) hx s.env t p o r
        simp [hs, ha]
    · exact hs

theorem execRecoveryTaskCreation_tabled : Tabled (execRecoveryTaskCreation s) := by
  refine State.run_tabled hs fun s hs => ?_
  dsimp only
  (repeat' split) <;> simp [hs]

theorem execRefileTaskCreation_tabled : Tabled (execRefileTaskCreation s) := by
  refine State.run_tabled hs fun s hs => ?_
  (repeat' split) <;> simp [hs]

theorem execArrived_tabled (a : Acc) (tag : Byte) : Tabled (execArrived a tag s) := by
  refine State.run_tabled hs (State.keeps_report _ _ fun k g hg e x hx => ?_)
  split at hg
  · cases hg; simp [hx]
  · cases hg

theorem execPicked_tabled (a : Acc) (tag : Byte) (label : Label) : Tabled (execPicked a tag label s) := by
  refine State.run_tabled hs (State.keeps_report _ _ fun k g hg e x hx => ?_)
  split at hg
  · cases hg; simp [hx]
  · cases hg

theorem execGripMiss_tabled (a : Acc) (tag : Byte) : Tabled (execGripMiss a tag s) := by
  refine State.run_tabled hs (State.keeps_report _ _ fun k g hg e x hx => ?_)
  split at hg
  · cases hg; simp [hx]
  · cases hg

theorem execPlaced_tabled (a : Acc) (tag : Byte) : Tabled (execPlaced a tag s) := by
  refine State.run_tabled hs (State.keeps_report _ _ fun k g hg e x hx => ?_)
  split at hg
  · cases hg; simp [hx]
  · cases hg

theorem execPlaceBlocked_tabled (a : Acc) (tag : Byte) : Tabled (execPlaceBlocked a tag s) := by
  refine State.run_tabled hs (State.keeps_report _ _ fun k g hg e x hx => ?_)
  split at hg
  · cases hg; simp [hx]
  · cases hg

theorem execReadDone_tabled (a : Acc) (tag : Byte) (readings : List Reading) : Tabled
    (execReadDone a tag readings s) := by
  refine State.run_tabled hs (State.keeps_report _ _ fun k g hg e x hx => ?_)
  split at hg
  · split at hg
    · cases hg; simp [hx]
    · cases hg
  · cases hg

theorem execRecovered_tabled (a : Acc) (tag : Byte) (bay : Byte) (gripper : Reading) :
    Tabled (execRecovered a tag bay gripper s) := by
  refine State.run_tabled hs (State.keeps_report _ _ fun k g hg e x hx => ?_)
  (repeat' split at hg) <;> cases hg <;> simp [hx]

theorem execMotor_tabled (a : Acc) (tag : Byte) : Tabled (execMotor a tag s) := by
  exact State.run_tabled hs (State.keeps_report _ _ fun k g hg e x hx => by cases hg; simp [hx])

theorem execLabelDevice_tabled (a : Acc) (tag : Byte) : Tabled (execLabelDevice a tag s) := by
  refine State.run_tabled hs (State.keeps_report _ _ fun k g hg e x hx => ?_)
  split at hg
  · cases hg; simp [hx]
  · cases hg

theorem execStepDeadlineExpiry_tabled (a : Acc) : Tabled (execStepDeadlineExpiry a s) := by
  refine State.run_tabled hs fun s hs => ?_
  (repeat' split) <;> simp [hs]

theorem execTenureExpiry_tabled : Tabled (execTenureExpiry s) := by
  refine State.run_tabled hs fun s hs => ?_
  dsimp only
  (repeat' split) <;> simp [hs]

theorem execLegPromotion_tabled : Tabled (execLegPromotion s) := by
  exact State.run_tabled hs (State.keeps_plantly fun e x hx => by simp [hx])

theorem execReady_tabled (d : DriveNo) : Tabled (execReady d s) := by
  exact State.run_tabled hs (State.keeps_driveReport (State.keeps_moving fun e x hx => by simp [hx]))

theorem execThreadFail_tabled (d : DriveNo) : Tabled (execThreadFail d s) := by
  exact State.run_tabled hs (State.keeps_driveReport (State.keeps_moving fun e x hx => by simp [hx]))

theorem execUnloaded_tabled (d : DriveNo) (footage : BitVec 16) (blocksRead blocksWritten : BitVec 24) :
    Tabled (execUnloaded d footage blocksRead blocksWritten s) := by
  refine State.run_tabled hs (State.keeps_driveReport fun s hs => ?_)
  have hu := unloadedAt_agree s.env d ⟨footage.toNat, blocksRead.toNat, blocksWritten.toNat⟩ s.acu
    (x := s.plant.cameOut s.env d) (by simp [hs])
  simp [hu]

theorem execOnline_tabled (d : DriveNo) : Tabled (execOnline d s) := by
  exact State.run_tabled hs (State.keeps_driveReport (State.keeps_moving fun e x hx => by simp [hx]))

theorem execOffline_tabled (d : DriveNo) : Tabled (execOffline d s) := by
  exact State.run_tabled hs (State.keeps_driveReport (State.keeps_plantly fun e x hx => by simp [hx]))

theorem execCheck_tabled (d : DriveNo) : Tabled (execCheck d s) := by
  exact State.run_tabled hs (State.keeps_driveReport (State.keeps_plantly fun e x hx => by simp [hx]))

theorem execDoneKey_tabled (k : Keyed) : Tabled (execDoneKey k s) := by
  exact State.run_tabled hs (State.keeps_answering _ fun p => State.keeps_done _ p)

theorem execCancelKey_tabled (k : Keyed) : Tabled (execCancelKey k s) := by
  exact State.run_tabled hs (State.keeps_answering _ fun p s hs => by split <;> simp [hs])

theorem execSkipKey_tabled (k : Keyed) : Tabled (execSkipKey k s) := by
  exact State.run_tabled hs (State.keeps_answering _ fun p s hs => by simp [hs])

theorem execHoldKey_tabled (k : Keyed) : Tabled (execHoldKey k s) := by
  exact State.run_tabled hs (State.keeps_keyed _ fun s hs => by dsimp only; split <;> simp [hs])

theorem execEnterKey_tabled (k : Keyed) : Tabled (execEnterKey k s) := by
  exact State.run_tabled hs (State.keeps_keyed _ fun s hs => by dsimp only; (repeat' split) <;> simp [hs])

theorem execSwitchRun_tabled (k : Keyed) : Tabled (execSwitchRun k s) := by
  exact State.run_tabled hs (State.keeps_switched _ _)

theorem execSwitchMaintain_tabled (k : Keyed) : Tabled (execSwitchMaintain k s) := by
  exact State.run_tabled hs (State.keeps_switched _ _)

theorem execPromptEscalation_tabled (n : BitVec 16) : Tabled (execPromptEscalation n s) := by
  refine State.run_tabled hs fun s hs => ?_
  (repeat' split) <;> simp [hs]

theorem execPromptDeadlineExpiry_tabled (n : BitVec 16) : Tabled (execPromptDeadlineExpiry n s) := by
  refine State.run_tabled hs fun s hs => ?_
  (repeat' split) <;> simp [hs]

theorem execDoorOpen_tabled : Tabled (execDoorOpen s) := by
  refine State.run_tabled hs fun s hs => ?_
  dsimp only
  (repeat' split) <;> simp [hs]

theorem execDoorClosed_tabled : Tabled (execDoorClosed s) := by
  refine State.run_tabled hs fun s hs => ?_
  dsimp only
  (repeat' split) <;> simp [hs]

theorem execQuietTimerExpiry_tabled : Tabled (execQuietTimerExpiry s) := by
  refine State.run_tabled hs fun s hs => ?_
  (repeat' split) <;> simp [hs]

theorem execPersistCompletion_tabled : Tabled (execPersistCompletion s) := by
  refine State.run_tabled hs fun s hs => ?_
  dsimp only
  (repeat' split) <;> simp [hs]

theorem execAuditIntervalExpiry_tabled : Tabled (execAuditIntervalExpiry s) := by
  refine State.run_tabled hs fun s hs => ?_
  (repeat' split) <;> simp [hs]

theorem execUnknownCommand_tabled (h : Hdr) (code : Byte) : Tabled (execUnknownCommand h code s) := by
  unfold execUnknownCommand
  split
  · exact State.run_tabled hs fun s hs => hs
  · exact State.mgmt_tabled hs fun s hs => by simp [hs]

theorem execLoadVolume_tabled (h : Hdr) (f : VolumeFields) : Tabled (execLoadVolume h f s) := by
  refine State.mgmt_tabled hs fun s hs => ?_
  split
  · simp [hs]
  · split
    · simp [hs]
    next hc =>
      have hl := Plant.loadVolume_agree hs s.env f hc
      simp [↓Plant.reply_records, hl]

theorem execDeleteVolume_tabled (h : Hdr) (serial : List Byte) : Tabled (execDeleteVolume h serial s) := by
  refine State.mgmt_tabled hs fun s hs => ?_
  (repeat' split) <;> simp [hs]

theorem execSetVolumeFlags_tabled (h : Hdr) (serial : List Byte) (setFlags clearFlags : Byte) :
    Tabled (execSetVolumeFlags h serial setFlags clearFlags s) := by
  refine State.mgmt_tabled hs fun s hs => ?_
  split
  · simp [hs]
  next v _ =>
    (repeat' split) <;> try simp [hs]
    next r hr _ =>
      exact (Plant.agree_iff _).mp (((Plant.agree_iff _).mpr hs).flag hr (f := (·.mark setFlags clearFlags))
        fun _ => by simp [Volume.mark])

theorem execReadVolume_tabled (h : Hdr) (serial : List Byte) : Tabled (execReadVolume h serial s) := by
  refine State.mgmt_tabled hs fun s hs => ?_
  (repeat' split) <;> simp [hs]

theorem execReadNextVolume_tabled (h : Hdr) (serial : List Byte) : Tabled (execReadNextVolume h serial s) := by
  refine State.mgmt_tabled hs fun s hs => ?_
  (repeat' split) <;> simp [hs]

theorem execReadCell_tabled (h : Hdr) (cell : BitVec 16) : Tabled (execReadCell h cell s) := by
  refine State.mgmt_tabled hs fun s hs => ?_
  (repeat' split) <;> simp [hs]

theorem execReadSlot_tabled (h : Hdr) (rack slot : Byte) : Tabled (execReadSlot h rack slot s) := by
  refine State.mgmt_tabled hs fun s hs => ?_
  (repeat' split) <;> simp [hs]

theorem execReadPool_tabled (h : Hdr) (index : BitVec 16) : Tabled (execReadPool h index s) := by
  refine State.mgmt_tabled hs fun s hs => ?_
  (repeat' split) <;> simp [hs]

theorem execFenceWrite_tabled (h : Hdr) (f : FenceFields) : Tabled (execFenceWrite h f s) := by
  refine State.mgmt_tabled hs fun s hs => ?_
  dsimp only
  (repeat' split) <;> simp [hs]

theorem execFencePersist_tabled (h : Hdr) (f : FenceFields) : Tabled (execFencePersist h f s) := by
  refine State.mgmt_tabled hs fun s hs => ?_
  dsimp only
  (repeat' split) <;> simp [hs]

theorem execReadFence_tabled (h : Hdr) : Tabled (execReadFence h s) := by
  exact State.mgmt_tabled hs fun s hs => by simp [hs]

theorem execSetWearLimits_tabled (h : Hdr) (mountLimit : BitVec 16) (failLimit : Byte) :
    Tabled (execSetWearLimits h mountLimit failLimit s) := by
  exact State.mgmt_tabled hs fun s hs => by simp [hs]

theorem execReadWearLimits_tabled (h : Hdr) : Tabled (execReadWearLimits h s) := by
  exact State.mgmt_tabled hs fun s hs => by simp [hs]

theorem execSetPace_tabled (h : Hdr) (letter n hyst : Byte) : Tabled (execSetPace h letter n hyst s) := by
  exact State.mgmt_tabled hs (State.keeps_given _ _ fun _ => fun s hs => by simp [hs])

theorem execEject_tabled (h : Hdr) (serial : List Byte) : Tabled (execEject h serial s) := by
  refine State.mgmt_tabled hs fun s hs => ?_
  (repeat' split) <;> simp [hs]

theorem execReadTask_tabled (h : Hdr) (record : Byte) : Tabled (execReadTask h record s) := by
  exact State.mgmt_tabled hs (State.keeps_given _ _ fun _ => fun s hs => by simp [hs])

theorem execSetTenure_tabled (h : Hdr) (tenure : BitVec 16) : Tabled (execSetTenure h tenure s) := by
  exact State.mgmt_tabled hs fun s hs => by simp [hs]

theorem execReadAccessor_tabled (h : Hdr) (acc : Byte) : Tabled (execReadAccessor h acc s) := by
  exact State.mgmt_tabled hs (State.keeps_given _ _ fun _ => fun s hs => by simp [hs])

theorem execReadLeg_tabled (h : Hdr) (index : Byte) : Tabled (execReadLeg h index s) := by
  refine State.mgmt_tabled hs fun s hs => ?_
  (repeat' split) <;> simp [hs]

theorem execLoadDrive_tabled (h : Hdr) (drive present mask : Byte) (interval : BitVec 32) (clear : Byte) :
    Tabled (execLoadDrive h drive present mask interval clear s) := by
  refine State.mgmt_tabled hs (State.keeps_given _ _ fun _ => fun s hs => ?_)
  (repeat' split) <;> simp [hs]

theorem execReadDrive_tabled (h : Hdr) (drive : Byte) : Tabled (execReadDrive h drive s) := by
  exact State.mgmt_tabled hs (State.keeps_given _ _ fun _ => fun s hs => by simp [hs])

theorem execSetPromptTimes_tabled (h : Hdr) (kind : Byte) (deadline escalation : BitVec 16) (urgency : Byte) :
    Tabled (execSetPromptTimes h kind deadline escalation urgency s) := by
  exact State.mgmt_tabled hs (State.keeps_given _ _ fun _ => (State.keeps_given _ _ fun _ => fun s hs => by simp [hs]))

theorem execLoadTemplate_tabled (h : Hdr) (number : Byte) (line1 line2 : List Byte) :
    Tabled (execLoadTemplate h number line1 line2 s) := by
  exact State.mgmt_tabled hs (State.keeps_given _ _ fun _ => (State.keeps_given _ _ fun _ => fun s hs => by simp [hs]))

theorem execReadPrompt_tabled (h : Hdr) (collection index : Byte) : Tabled (execReadPrompt h collection index s) := by
  refine State.mgmt_tabled hs (State.keeps_given _ _ fun _ => fun s hs => ?_)
  dsimp only
  (repeat' split) <;> simp [hs]

theorem execReadConsole_tabled (h : Hdr) (console : Byte) : Tabled (execReadConsole h console s) := by
  exact State.mgmt_tabled hs (State.keeps_given _ _ fun _ => fun s hs => by simp [hs])

theorem execReadTemplate_tabled (h : Hdr) (number : Byte) : Tabled (execReadTemplate h number s) := by
  exact State.mgmt_tabled hs (State.keeps_given _ _ fun _ => fun s hs => by simp [hs])

theorem execReadPromptTimes_tabled (h : Hdr) (kind : Byte) : Tabled (execReadPromptTimes h kind s) := by
  exact State.mgmt_tabled hs (State.keeps_given _ _ fun _ => fun s hs => by simp [hs])

theorem execSetTimeBase_tabled (h : Hdr) (prescale : Byte) (divisor : BitVec 16) :
    Tabled (execSetTimeBase h prescale divisor s) := by
  exact State.mgmt_tabled hs (State.keeps_given _ _ fun _ => fun s hs => by simp [hs])

theorem execSetClock_tabled (h : Hdr) (minute : BitVec 16) : Tabled (execSetClock h minute s) := by
  refine State.mgmt_tabled hs fun s hs => ?_
  dsimp only
  (repeat' split) <;> simp [hs]

theorem execReadClock_tabled (h : Hdr) : Tabled (execReadClock h s) := by
  exact State.mgmt_tabled hs fun s hs => by simp [hs]

theorem execLoadRate_tabled (h : Hdr) (cls : Byte) (fee granule price wear : BitVec 16) :
    Tabled (execLoadRate h cls fee granule price wear s) := by
  exact State.mgmt_tabled hs (State.keeps_given _ _ fun _ => (State.keeps_given _ _ fun _ => fun s hs => by simp [hs]))

theorem execReadRate_tabled (h : Hdr) (cls : Byte) : Tabled (execReadRate h cls s) := by
  exact State.mgmt_tabled hs (State.keeps_given _ _ fun _ => fun s hs => by simp [hs])

theorem execLoadShifts_tabled (h : Hdr) (periods : List (BitVec 16 × Byte)) : Tabled (execLoadShifts h periods s) := by
  exact State.mgmt_tabled hs (State.keeps_given _ _ fun _ => fun s hs => by simp [hs])

theorem execReadShifts_tabled (h : Hdr) : Tabled (execReadShifts h s) := by
  exact State.mgmt_tabled hs fun s hs => by simp [hs]

theorem execLoadAccount_tabled (h : Hdr) (account cls : Byte) (allowance : BitVec 32) :
    Tabled (execLoadAccount h account cls allowance s) := by
  exact State.mgmt_tabled hs (State.keeps_given _ _ fun _ => fun s hs => by simp [hs])

theorem execClearAccount_tabled (h : Hdr) (scope account : Byte) : Tabled (execClearAccount h scope account s) := by
  refine State.mgmt_tabled hs (State.keeps_given _ _ fun _ => fun s hs => ?_)
  dsimp only
  (repeat' split) <;> simp [hs]

theorem execReadAccount_tabled (h : Hdr) (account : Byte) : Tabled (execReadAccount h account s) := by
  exact State.mgmt_tabled hs fun s hs => by simp [hs]

theorem execSetDrain_tabled (h : Hdr) (trigger : Byte) (quiet : BitVec 16) : Tabled
    (execSetDrain h trigger quiet s) := by
  exact State.mgmt_tabled hs (State.keeps_given _ _ fun _ => fun s hs => by simp [hs])

theorem execReadDrain_tabled (h : Hdr) : Tabled (execReadDrain h s) := by
  exact State.mgmt_tabled hs fun s hs => by simp [hs]

theorem execTake_tabled (h : Hdr) (k given : Byte) (expected : BitVec 16) : Tabled (execTake h k given expected s) := by
  refine State.mgmt_tabled hs (State.keeps_given _ _ fun _ => fun s hs => ?_)
  (repeat' split) <;> simp [hs]

theorem execReadRecord_tabled (h : Hdr) (index : Byte) : Tabled (execReadRecord h index s) := by
  refine State.mgmt_tabled hs fun s hs => ?_
  (repeat' split) <;> simp [hs]

theorem execLoadSweep_tabled (h : Hdr) (entry kind bay first last : Byte) :
    Tabled (execLoadSweep h entry kind bay first last s) := by
  exact State.mgmt_tabled hs (State.keeps_given _ _ fun _ => (State.keeps_given _ _ fun _ => fun s hs => by simp [hs]))

theorem execSetSweepBoundary_tabled (h : Hdr) (l2 : Byte) : Tabled (execSetSweepBoundary h l2 s) := by
  exact State.mgmt_tabled hs fun s hs => by simp [hs]

theorem execSetAuditMode_tabled (h : Hdr) (list mode : Byte) : Tabled (execSetAuditMode h list mode s) := by
  refine State.mgmt_tabled hs (State.keeps_given _ _ fun _ => (State.keeps_given _ _ fun _ => fun s hs => ?_))
  (repeat' split) <;> simp [hs]

theorem execStartSweep_tabled (h : Hdr) (list : Byte) : Tabled (execStartSweep h list s) := by
  refine State.mgmt_tabled hs (State.keeps_given _ _ fun l s hs => ?_)
  split
  · simp [hs]
  next x hx =>
    have hl : x.ltu = s.plant.ltu := by
      unfold Plant.startSweep at hx
      dsimp only at hx
      (repeat' split at hx) <;> cases hx <;> simp
    simp [hl, hs]

theorem execSetAuditInterval_tabled (h : Hdr) (interval : BitVec 16) : Tabled (execSetAuditInterval h interval s) := by
  refine State.mgmt_tabled hs fun s hs => ?_
  (repeat' split) <;> simp [hs]

theorem execReadSweepEntry_tabled (h : Hdr) (entry : Byte) : Tabled (execReadSweepEntry h entry s) := by
  exact State.mgmt_tabled hs (State.keeps_given _ _ fun _ => fun s hs => by simp [hs])

theorem execReadSweepList_tabled (h : Hdr) (list : Byte) : Tabled (execReadSweepList h list s) := by
  exact State.mgmt_tabled hs (State.keeps_given _ _ fun _ => fun s hs => by simp [hs])

theorem execReadSweepTimer_tabled (h : Hdr) : Tabled (execReadSweepTimer h s) := by
  exact State.mgmt_tabled hs fun s hs => by simp [hs]

theorem execReadLink_tabled (h : Hdr) : Tabled (execReadLink h s) := by
  exact State.mgmt_tabled hs fun s hs => by simp [hs]

theorem execClearLinkCounters_tabled (h : Hdr) (name : Byte) : Tabled (execClearLinkCounters h name s) := by
  refine State.mgmt_tabled hs fun s hs => ?_
  dsimp only
  (repeat' split) <;> simp [hs]

theorem execSetManagementPaths_tabled (h : Hdr) (mask : Byte) : Tabled (execSetManagementPaths h mask s) := by
  exact State.mgmt_tabled hs (State.keeps_given _ _ fun _ => fun s hs => by simp [hs])

theorem execReadState_tabled (h : Hdr) : Tabled (execReadState h s) := by
  exact State.mgmt_tabled hs fun s hs => by simp [hs]

theorem execReadFlags_tabled (h : Hdr) : Tabled (execReadFlags h s) := by
  exact State.mgmt_tabled hs fun s hs => by simp [hs]

theorem execClearFlags_tabled (h : Hdr) (pairs : List (Byte × BitVec 32)) : Tabled (execClearFlags h pairs s) := by
  exact State.mgmt_tabled hs (State.keeps_given _ _ fun _ => fun s hs => by simp [hs])

theorem execSetNoticeMask_tabled (h : Hdr) (marks : BitVec 16) : Tabled (execSetNoticeMask h marks s) := by
  exact State.mgmt_tabled hs fun s hs => by simp [hs]

theorem execLibraryStart_tabled (h : Hdr) : Tabled (execLibraryStart h s) := by
  refine State.mgmt_tabled hs fun s hs => ?_
  dsimp only
  (repeat' split) <;> simp [hs]

theorem execRestart_tabled (h : Hdr) : Tabled (execRestart h s) := by
  refine State.mgmt_tabled hs fun s hs => ?_
  split
  · exact State.restarted_agree h hs
  · exact State.restarted_agree h hs
  · simp [hs]
  · simp [hs]

theorem execTick_tabled : Tabled (execTick s) := by
  exact State.run_tabled hs fun s hs => hs

theorem execResetPinAsserted_tabled : Tabled (execResetPinAsserted s) := by
  exact Tabled.next hs

theorem execNotPermitted_tabled (h : Hdr) (code : Byte) : Tabled (execNotPermitted h code s) := by
  unfold execNotPermitted
  refine State.run_tabled hs fun s hs => ?_
  split <;> simp [hs]

theorem execBadOrder_tabled (h : Hdr) (kind : Byte) : Tabled (execBadOrder h kind s) := by
  refine State.run_tabled hs fun s hs => ?_
  split
  · exact hs
  · exact State.keeps_arrive _ _ _ (fun s hs => hs) s hs

theorem exec_tabled (i : Instr) : Tabled (exec i s) := by
  cases i with
  | powerOn strap => exact execPowerOn_tabled strap
  | hardReset strap => exact execHardReset_tabled strap
  | imageRead image => exact execImageRead_tabled hs image
  | imageReadTimeout => exact execImageReadTimeout_tabled hs
  | dayClockMinute => exact execDayClockMinute_tabled hs
  | malformedFrame link bytes => exact execMalformedFrame_tabled hs link bytes
  | mount h serial drive intent account => exact execMount_tabled hs h serial drive intent account
  | mountScratch h drive account => exact execMountScratch_tabled hs h drive account
  | dismount h drive => exact execDismount_tabled hs h drive
  | cancel h target => exact execCancel_tabled hs h target
  | queryVolume h serial => exact execQueryVolume_tabled hs h serial
  | queryDrive h drive => exact execQueryDrive_tabled hs h drive
  | admission => exact execAdmission_tabled hs
  | recoveryTaskCreation => exact execRecoveryTaskCreation_tabled hs
  | refileTaskCreation => exact execRefileTaskCreation_tabled hs
  | arrived acc tag => exact execArrived_tabled hs acc tag
  | picked acc tag label => exact execPicked_tabled hs acc tag label
  | gripMiss acc tag => exact execGripMiss_tabled hs acc tag
  | placed acc tag => exact execPlaced_tabled hs acc tag
  | placeBlocked acc tag => exact execPlaceBlocked_tabled hs acc tag
  | readDone acc tag readings => exact execReadDone_tabled hs acc tag readings
  | recovered acc tag bay gripper => exact execRecovered_tabled hs acc tag bay gripper
  | motor acc tag => exact execMotor_tabled hs acc tag
  | labelDevice acc tag => exact execLabelDevice_tabled hs acc tag
  | stepDeadlineExpiry acc => exact execStepDeadlineExpiry_tabled hs acc
  | tenureExpiry => exact execTenureExpiry_tabled hs
  | legPromotion => exact execLegPromotion_tabled hs
  | ready drive => exact execReady_tabled hs drive
  | threadFail drive => exact execThreadFail_tabled hs drive
  | unloaded drive footage blocksRead blocksWritten => exact execUnloaded_tabled hs drive footage blocksRead blocksWritten
  | online drive => exact execOnline_tabled hs drive
  | offline drive => exact execOffline_tabled hs drive
  | check drive => exact execCheck_tabled hs drive
  | doneKey k => exact execDoneKey_tabled hs k
  | cancelKey k => exact execCancelKey_tabled hs k
  | skipKey k => exact execSkipKey_tabled hs k
  | holdKey k => exact execHoldKey_tabled hs k
  | enterKey k => exact execEnterKey_tabled hs k
  | switchRun k => exact execSwitchRun_tabled hs k
  | switchMaintain k => exact execSwitchMaintain_tabled hs k
  | promptEscalation prompt => exact execPromptEscalation_tabled hs prompt
  | promptDeadlineExpiry prompt => exact execPromptDeadlineExpiry_tabled hs prompt
  | doorOpen => exact execDoorOpen_tabled hs
  | doorClosed => exact execDoorClosed_tabled hs
  | quietTimerExpiry => exact execQuietTimerExpiry_tabled hs
  | persistCompletion => exact execPersistCompletion_tabled hs
  | auditIntervalExpiry => exact execAuditIntervalExpiry_tabled hs
  | unknownCommand h code => exact execUnknownCommand_tabled hs h code
  | loadVolume h f => exact execLoadVolume_tabled hs h f
  | deleteVolume h serial => exact execDeleteVolume_tabled hs h serial
  | setVolumeFlags h serial setFlags clearFlags => exact execSetVolumeFlags_tabled hs h serial setFlags clearFlags
  | readVolume h serial => exact execReadVolume_tabled hs h serial
  | readNextVolume h serial => exact execReadNextVolume_tabled hs h serial
  | readCell h cell => exact execReadCell_tabled hs h cell
  | readSlot h rack slot => exact execReadSlot_tabled hs h rack slot
  | readPool h index => exact execReadPool_tabled hs h index
  | fenceWrite h f => exact execFenceWrite_tabled hs h f
  | fencePersist h f => exact execFencePersist_tabled hs h f
  | readFence h => exact execReadFence_tabled hs h
  | setWearLimits h mountLimit failLimit => exact execSetWearLimits_tabled hs h mountLimit failLimit
  | readWearLimits h => exact execReadWearLimits_tabled hs h
  | setPace h letter n hyst => exact execSetPace_tabled hs h letter n hyst
  | eject h serial => exact execEject_tabled hs h serial
  | readTask h record => exact execReadTask_tabled hs h record
  | setTenure h tenure => exact execSetTenure_tabled hs h tenure
  | readAccessor h acc => exact execReadAccessor_tabled hs h acc
  | readLeg h index => exact execReadLeg_tabled hs h index
  | loadDrive h drive present mask interval clear => exact execLoadDrive_tabled hs h drive present mask interval clear
  | readDrive h drive => exact execReadDrive_tabled hs h drive
  | setPromptTimes h kind deadline escalation urgency => exact execSetPromptTimes_tabled hs h kind deadline escalation urgency
  | loadTemplate h number line1 line2 => exact execLoadTemplate_tabled hs h number line1 line2
  | readPrompt h collection index => exact execReadPrompt_tabled hs h collection index
  | readConsole h console => exact execReadConsole_tabled hs h console
  | readTemplate h number => exact execReadTemplate_tabled hs h number
  | readPromptTimes h kind => exact execReadPromptTimes_tabled hs h kind
  | setTimeBase h prescale divisor => exact execSetTimeBase_tabled hs h prescale divisor
  | setClock h minute => exact execSetClock_tabled hs h minute
  | readClock h => exact execReadClock_tabled hs h
  | loadRate h cls fee granule price wear => exact execLoadRate_tabled hs h cls fee granule price wear
  | readRate h cls => exact execReadRate_tabled hs h cls
  | loadShifts h periods => exact execLoadShifts_tabled hs h periods
  | readShifts h => exact execReadShifts_tabled hs h
  | loadAccount h account cls allowance => exact execLoadAccount_tabled hs h account cls allowance
  | clearAccount h scope account => exact execClearAccount_tabled hs h scope account
  | readAccount h account => exact execReadAccount_tabled hs h account
  | setDrain h trigger quiet => exact execSetDrain_tabled hs h trigger quiet
  | readDrain h => exact execReadDrain_tabled hs h
  | take h k given expected => exact execTake_tabled hs h k given expected
  | readRecord h index => exact execReadRecord_tabled hs h index
  | loadSweep h entry kind bay first last => exact execLoadSweep_tabled hs h entry kind bay first last
  | setSweepBoundary h l2 => exact execSetSweepBoundary_tabled hs h l2
  | setAuditMode h list mode => exact execSetAuditMode_tabled hs h list mode
  | startSweep h list => exact execStartSweep_tabled hs h list
  | setAuditInterval h interval => exact execSetAuditInterval_tabled hs h interval
  | readSweepEntry h entry => exact execReadSweepEntry_tabled hs h entry
  | readSweepList h list => exact execReadSweepList_tabled hs h list
  | readSweepTimer h => exact execReadSweepTimer_tabled hs h
  | readLink h => exact execReadLink_tabled hs h
  | clearLinkCounters h name => exact execClearLinkCounters_tabled hs h name
  | setManagementPaths h mask => exact execSetManagementPaths_tabled hs h mask
  | readState h => exact execReadState_tabled hs h
  | readFlags h => exact execReadFlags_tabled hs h
  | clearFlags h pairs => exact execClearFlags_tabled hs h pairs
  | setNoticeMask h marks => exact execSetNoticeMask_tabled hs h marks
  | libraryStart h => exact execLibraryStart_tabled hs h
  | restart h => exact execRestart_tabled hs h
  | tick => exact execTick_tabled hs
  | resetPinAsserted => exact execResetPinAsserted_tabled hs
  | notPermitted h code => exact execNotPermitted_tabled hs h code
  | badOrder h kind => exact execBadOrder_tabled hs h kind

end Commands

end Sys2Proof.Machine

open Sys2Proof Sys2Proof.Machine in
/-- Settles O14: agreement of the three tables is kept by every function of the plant, and so by every command. -/
theorem libraryTablesStayConsistent : Obligations.LibraryTablesStayConsistent := by
  intro s t hs ht
  rw [Plant.tablesOk_iff_agree, Plant.agree_iff] at hs ⊢
  unfold step at ht
  split at ht
  · exact Host.Outcome.next.inj ht ▸ hs
  next c rest _ => exact exec_tabled (s := { s with pending := rest }) hs c t ht
end

section
/-!
PROOFS. The reads of the library tables (R24; O19).
-/
namespace Sys2Proof.Machine

/-! ### The entry a read of the volume table shows (R24) -/

/-- The serials READ NEXT VOLUME looks above: all of them from FIRST, those above the one given otherwise. -/
def Above (after : Option Serial) (q : Serial) : Prop := ∀ r, after = some r → r < q

theorem nextOf_first : nextOf (List.replicate 6 0xFF#8) = some none := if_pos rfl

theorem serialOf_first : serialOf (List.replicate 6 0xFF#8) = none := by decide

theorem nextOf_serial {b : List Byte} {q : Serial} (h : serialOf b = some q) : nextOf b = some (some q) := by
  have hb : b ≠ List.replicate 6 0xFF#8 := fun e => absurd h (by rw [e, serialOf_first]; simp)
  rw [nextOf, if_neg hb, h]; rfl

theorem nextOf_none {b : List Byte} (hb : b ≠ List.replicate 6 0xFF#8) (h : serialOf b = none) : nextOf b = none := by
  rw [nextOf, if_neg hb, h]; rfl

/-- The operand of READ NEXT VOLUME, and the serials it looks above. -/
theorem nextOf_above {b : List Byte} {above : Serial → Prop}
    (h : (b = List.replicate 6 0xFF#8 ∧ above = fun _ => True) ∨ ∃ q, serialOf b = some q ∧ above = fun r => q < r) :
    ∃ after, nextOf b = some after ∧ ∀ q, above q ↔ Above after q := by
  rcases h with ⟨rfl, rfl⟩ | ⟨q, hq, rfl⟩
  · exact ⟨none, nextOf_first, by simp [Above]⟩
  · exact ⟨some q, nextOf_serial hq, by simp [Above]⟩

theorem Plant.nextVolume_none {x : Plant} {after : Option Serial} (h : ∀ v ∈ x.ltu.volumes, ¬ Above after v.serial) :
    x.nextVolume after = none := by
  refine List.find?_eq_none.mpr fun v hv => ?_
  have hn := h v hv
  cases after with
  | none => simp [Above] at hn
  | some q => simpa [Above] using hn

theorem Plant.nextVolume_some {x : Plant} {after : Option Serial} {l r : List Volume} {v : Volume}
    (h : x.ltu.volumes = l ++ v :: r) (hl : ∀ w ∈ l, ¬ Above after w.serial) (hv : Above after v.serial) :
    x.nextVolume after = some v := by
  refine List.find?_eq_some_iff_append.mpr ⟨?_, l, r, h, fun w hw => ?_⟩
  · cases after with
    | none => rfl
    | some q => simpa [Above] using hv
  · have hn := hl w hw
    cases after with
    | none => simp [Above] at hn
    | some q => simpa [Above] using hn

/-! ### The slot a read names -/

theorem indexOf_of_lt {n : Nat} {b : Byte} {i : Fin n} (h : b.toNat = i.val) : indexOf n b = some i := by
  simp [indexOf, h]

theorem indexOf_of_le {n : Nat} {b : Byte} (h : n ≤ b.toNat) : indexOf n b = none := by
  simp [indexOf, h]

theorem Plant.slotNamed_none {k n : Byte} (h : 2 < k.toNat ∨ 7 < n.toNat ∨ (k = 2 ∧ 3 < n.toNat)) (x : Plant) :
    x.slotNamed k n = none := by
  unfold Plant.slotNamed
  split
  next hk => subst hk; rw [indexOf_of_le (by simp at h; omega)]; rfl
  split
  next hk => subst hk; rw [indexOf_of_le (by simp at h; omega)]; rfl
  split
  next hk =>
    subst hk
    rw [indexOf_of_le (by simp at h; omega)]; rfl
  · rfl

/-- Settles O19: a management command that reaches its owner is its body, and the reads only show. -/
theorem tableReadsShowTheEntries : Obligations.TableReadsShowTheEntries := by
  refine ⟨fun h b s hs => ⟨fun hb => ?_, fun q hq => ⟨fun hv => ?_, fun v hv => ?_⟩⟩,
    fun h b s hs => ⟨fun hf hb => ?_, fun above ha => ?_⟩, fun h c s hs => ⟨fun hc => ?_, fun hc => ?_⟩,
    fun h k n s hs => ⟨fun i hk hn => ?_, fun i hk hn => ?_, fun i hk hn => ?_, fun hn => ?_⟩,
    fun h i s hs => ⟨fun hi => ?_, fun v hv => ?_⟩⟩
  · exact (State.mgmt_body hs _).trans (by simp [hb, State.say_eq_replied])
  · exact (State.mgmt_body hs _).trans (by simp [hq, hv, State.say_eq_replied])
  · exact (State.mgmt_body hs _).trans (by simp [hq, hv, State.show_eq_replied])
  · exact (State.mgmt_body hs _).trans (by simp [nextOf_none hf hb, State.say_eq_replied])
  · obtain ⟨after, hn, hab⟩ := nextOf_above ha
    simp only [hab]
    refine ⟨fun hv => ?_, fun l r v hv hl hr => ?_⟩
    · exact (State.mgmt_body hs _).trans (by simp [hn, Plant.nextVolume_none hv, State.say_eq_replied])
    · exact (State.mgmt_body hs _).trans (by simp [hn, Plant.nextVolume_some hv hl hr, State.show_eq_replied])
  · exact (State.mgmt_body hs _).trans (by simp [hc, State.say_eq_replied])
  · exact (State.mgmt_body hs _).trans (by simp [hc, State.show_eq_replied])
  · exact (State.mgmt_body hs _).trans (by simp [Plant.slotNamed, hk, indexOf_of_lt hn, State.show_eq_replied])
  · exact (State.mgmt_body hs _).trans (by simp [Plant.slotNamed, hk, indexOf_of_lt hn, State.show_eq_replied])
  · exact (State.mgmt_body hs _).trans (by simp [Plant.slotNamed, hk, indexOf_of_lt hn, State.show_eq_replied])
  · exact (State.mgmt_body hs _).trans (by simp [Plant.slotNamed_none hn, State.say_eq_replied])
  · exact (State.mgmt_body hs _).trans (by simp [hi, State.say_eq_replied])
  · exact (State.mgmt_body hs _).trans (by simp [hv, State.show_eq_replied])

end Sys2Proof.Machine
end

section
/-!
PROOFS. DELETE VOLUME and SET VOLUME FLAGS (R12, R13; O18).
-/
namespace Sys2Proof.Machine

/-! ### Deleting a volume that stands at no place, and marking a volume (R12, R13) -/

theorem CellRec.eq_of {r q : CellRec} (hn : r.num = q.num) (ho : r.occ = q.occ) (hh : r.homeOf = q.homeOf) : r = q := by
  cases r; cases q; simp_all

/-- The deletion of a volume that is OUTSIDE or UNKNOWN writes the library tables alone. -/
theorem Plant.deleteVol_nowhere {x : Plant} {s : Serial} {v : Volume} (h : x.vol? s = some v)
    (hl : v.loc = .outside ∨ v.loc = .unknown) :
    x.deleteVol s = { x with ltu := (x.deleteVol s).ltu } ∧ (x.deleteVol s).ltu.entry = x.ltu.entry
      ∧ (x.deleteVol s).ltu.service = x.ltu.service := by
  have hs : x.leaveLoc s v.loc = x := by rcases hl with e | e <;> rw [e] <;> rfl
  simp only [Plant.deleteVol, h, hs]
  cases v.home <;> exact ⟨rfl, rfl, rfl⟩

/-- The cells after that deletion: the home cell is home to none, the others are as they were. -/
theorem Plant.cell_deleteVol_nowhere {x : Plant} {s : Serial} {v : Volume} (h : x.vol? s = some v)
    (hl : v.loc = .outside ∨ v.loc = .unknown) (c : CellNo) :
    (x.deleteVol s).cell c = { x.cell c with num := c, homeOf := if v.home = some c then none else (x.cell c).homeOf } := by
  have hn : v.loc ≠ .cell c := by rcases hl with e | e <;> simp [e]
  exact CellRec.eq_of (by simp) (by simp [Plant.occ_deleteVol h, hn]) (Plant.homeOf_deleteVol h c)

/-- The pool after a volume's SCRATCH flag is followed: its place is kept where it stood there already. -/
theorem Plant.followScratch_pool (s : Serial) (b : Bool) (x : Plant) :
    (x.followScratch s b).ltu.pool
      = if b then (if s ∈ x.ltu.pool then x.ltu.pool else x.ltu.pool ++ [s]) else x.ltu.pool.filter
          (fun r => r ≠ s) := by
  cases b <;> rfl

theorem Plant.followScratch_eq (s : Serial) (b : Bool) (x : Plant) :
    x.followScratch s b = { x with ltu := (x.followScratch s b).ltu } ∧ (x.followScratch s b).ltu.entry = x.ltu.entry
      ∧ (x.followScratch s b).ltu.service = x.ltu.service := by
  cases b <;> exact ⟨rfl, rfl, rfl⟩

theorem getLsbD_seven (k : Nat) : (7#8).getLsbD k = decide (k < 3) := by
  rcases lt_or_ge k 8 with h | h
  · interval_cases k <;> rfl
  · rw [BitVec.getLsbD_of_ge _ _ h, eq_comm, decide_eq_false_iff_not]
    omega

/-- Two sets of flags have one of the three flags in common. -/
theorem and_seven_ne_zero (a b : Byte) : a &&& b &&& 7 ≠ 0 ↔ ∃ k, k < 3 ∧ a.getLsbD k = true ∧ b.getLsbD k = true := by
  rw [← not_iff_not, not_not]
  constructor
  · rintro h ⟨k, hk, ha, hb⟩
    simpa [BitVec.getLsbD_and, getLsbD_seven, ha, hb, hk] using congrArg (BitVec.getLsbD · k) h
  · refine fun h => BitVec.eq_of_getLsbD_eq fun k _ => ?_
    by_cases hk : k < 3
    · have hn : ¬ (a.getLsbD k = true ∧ b.getLsbD k = true) := fun g => h ⟨k, hk, g⟩
      simpa [BitVec.getLsbD_and, getLsbD_seven, hk] using hn
    · simp [BitVec.getLsbD_and, getLsbD_seven, hk]

/-- What DELETE VOLUME leaves of the tables, for a volume that is OUTSIDE or UNKNOWN (R12). -/
theorem exec_deleteVolume_taken {h : Hdr} {b : List Byte} {s : State} (hs : s.manages h) {q : Serial} {v : Volume}
    (hq : serialOf b = some q) (hv : s.plant.vol? q = some v) (hb : v.bound = none) (hf : s.env.fenced q = false)
    (hl : v.loc = .outside ∨ v.loc = .unknown) :
    exec (.deleteVolume h b) s
      = .next (({ s with plant := { s.plant with ltu := (s.plant.deleteVol q).ltu } } : State).replied h .accepted .nothing) := by
  refine (State.mgmt_body hs _).trans ?_
  have hloc : ¬ (v.loc ≠ .outside ∧ v.loc ≠ .unknown) := by rcases hl with e | e <;> simp [e]
  rw [← (Plant.deleteVol_nowhere hv hl).1]
  simp only [hq, hv, hb, hf, hloc]
  rfl

/-- Settles O18. -/
theorem volumesAreDeletedAndFlagged : Obligations.VolumesAreDeletedAndFlagged := by
  refine ⟨fun h b s hs => ⟨fun hb => ?_, fun q hq hv => ?_, fun q v hq hv =>
    ⟨fun hb => ?_, fun hb hf => ?_, fun hb hf h1 h2 => ?_, fun hb hf hl => ?_⟩⟩,
    fun h b on off s hs => ⟨fun hb => ?_, fun q hq hk => ⟨fun hv => ?_, fun v hv => ⟨fun hb => ?_, fun hb => ?_⟩⟩⟩⟩
  · exact (State.mgmt_body hs _).trans (by simp [hb, State.say_eq_replied])
  · exact (State.mgmt_body hs _).trans (by simp [hq, hv, State.say_eq_replied])
  · exact (State.mgmt_body hs _).trans (by simp [hq, hv, Option.isSome_iff_ne_none, hb, State.say_eq_replied])
  · exact (State.mgmt_body hs _).trans (by simp [hq, hv, hb, hf, State.say_eq_replied])
  · exact (State.mgmt_body hs _).trans (by simp [hq, hv, hb, hf, h1, h2, State.say_eq_replied])
  · obtain ⟨-, he, hsv⟩ := Plant.deleteVol_nowhere hv hl
    have hc := Plant.cell_deleteVol_nowhere hv hl
    refine ⟨_, exec_deleteVolume_taken hs hq hv hb hf hl, ?_, fun r hr => ?_, (Plant.deleteVol_some hv).2,
        fun c hh => ?_,
      fun c hh => ?_, he, hsv⟩
    · exact (Plant.vol?_deleteVol q q s.plant).trans (if_pos rfl)
    · exact (Plant.vol?_deleteVol q r s.plant).trans (if_neg hr)
    · exact (hc c).trans (by rw [if_pos hh])
    · exact (hc c).trans (CellRec.eq_of (by simp) rfl (if_neg hh))
  · refine (State.mgmt_body hs _).trans ?_
    split
    · rfl
    next q hq =>
      rw [if_pos ((and_seven_ne_zero on off).mpr (by simpa [hq] using hb))]
      rfl
  · have hn := mt (and_seven_ne_zero on off).mp fun ⟨k, h3, h1⟩ => hk k h3 h1
    exact (State.mgmt_body hs _).trans (by simp only [hq, hv, hn]; rfl)
  · have hn := mt (and_seven_ne_zero on off).mp fun ⟨k, h3, h1⟩ => hk k h3 h1
    exact (State.mgmt_body hs _).trans (by simp only [hq, hv, hn, Option.isSome_iff_ne_none, if_pos hb]; rfl)
  · have hn := mt (and_seven_ne_zero on off).mp fun ⟨k, h3, h1⟩ => hk k h3 h1
    set y := (s.plant.updVol q (·.mark on off)).followScratch q (v.mark on off).scratch with hy
    obtain ⟨hp, he, hsv⟩ := Plant.followScratch_eq q (v.mark on off).scratch (s.plant.updVol q (·.mark on off))
    have read : ∀ r, y.vol? r = if r = q then some (v.mark on off) else s.plant.vol? r := fun r => by
      rw [hy, Plant.vol?_congr (Plant.followScratch_volumes _ _ _), Plant.vol?_updVol (f := (·.mark on off))
          fun _ => rfl, hv]; rfl
    refine ⟨y.ltu, v.mark on off, (State.mgmt_body hs _).trans ?_, rfl, ?_, fun r hr => ?_, ?_, ?_, he, hsv⟩
    · simp only [hq, hv, hn, hb]
      rw [show ({ s.plant with ltu := y.ltu } : Plant) = y from hp.symm]
      rfl
    · exact (read q).trans (if_pos rfl)
    · exact (read r).trans (if_neg hr)
    · exact Plant.followScratch_pool q _ _
    · simp [hy]

end Sys2Proof.Machine
end

section
/-!
PROOFS. What the tables, the racks and the grippers read after a write (R4, R6, R7, R14; O16).
-/
namespace Sys2Proof.Machine

/-! ### One rule per rack slot and gripper: what reads back after a write -/

theorem Plant.entry_setEntry (n m : Fin 8) (r : Slot) (x : Plant) :
    (x.setEntry n r).entry m = if n = m then r else x.entry m := by
  split
  next h => subst h; simp
  next h => exact Plant.entry_setEntry_other h r x

theorem Plant.service_setService (n m : Fin 8) (r : Slot) (x : Plant) :
    (x.setService n r).service m = if n = m then r else x.service m := by
  split
  next h => subst h; simp
  next h => exact Plant.service_setService_other h r x

theorem Plant.handoff_setHandoff (n m : Fin 4) (r : Slot) (x : Plant) :
    (x.setHandoff n r).handoff m = if n = m then r else x.handoff m := by
  split
  next h => subst h; simp
  next h => exact Plant.handoff_setHandoff_other h r x

theorem Plant.acc_updAcc (a b : Acc) (f : AccCtx → AccCtx) (x : Plant) :
    (x.updAcc a f).acc b = if a = b then f (x.acc a) else x.acc b := by
  cases a <;> cases b <;> rfl

theorem Plant.entry_congr {x y : Plant} (h : y.ltu.entry = x.ltu.entry) (n : Fin 8) : y.entry n = x.entry n :=
  congrArg (·.get n) h

theorem Plant.service_congr {x y : Plant} (h : y.ltu.service = x.ltu.service) (n : Fin 8) : y.service n = x.service n :=
  congrArg (·.get n) h

theorem Plant.handoff_congr {x y : Plant} (h : y.mou = x.mou) (n : Fin 4) : y.handoff n = x.handoff n :=
  congrArg (·.handoff.get n) h

theorem Plant.acc_congr {x y : Plant} (h : y.mou = x.mou) (a : Acc) : y.acc a = x.acc a := by
  cases a <;> simp only [Plant.acc, h]

/-! ### The place a volume leaves and the place it comes to (R6) -/

@[simp] theorem Plant.updAcc_handoff (a : Acc) (f : AccCtx → AccCtx) (x : Plant) :
    (x.updAcc a f).mou.handoff = x.mou.handoff := by cases a <;> rfl

section Leave
variable (s : Serial) (l : Location) (x : Plant)

theorem Plant.leaveLoc_entry {l : Location} (h : ∀ n, l ≠ .entry n) : (x.leaveLoc s l).ltu.entry = x.ltu.entry := by
  unfold Plant.leaveLoc
  split
  all_goals first | exact absurd rfl (h _) | ((try split) <;> simp)

theorem Plant.entry_leaveLoc (n : Fin 8) :
    (x.leaveLoc s l).entry n = if l = .entry n ∧ (x.entry n).content = some
        (.known s) then Slot.clear else x.entry n := by
  by_cases h : ∃ m, l = .entry m
  · obtain ⟨m, rfl⟩ := h
    simp only [Plant.leaveLoc, Location.entry.injEq]
    by_cases h : m = n
    · subst h; split <;> simp [*]
    · split <;> simp [Plant.entry_setEntry, h]
  · have h := not_exists.mp h
    rw [if_neg fun g => h n g.1]
    exact congrArg (·.get n) (Plant.leaveLoc_entry s x h)

theorem Plant.leaveLoc_service {l : Location} (h : ∀ n, l ≠ .service n) :
    (x.leaveLoc s l).ltu.service = x.ltu.service := by
  unfold Plant.leaveLoc
  split
  all_goals first | exact absurd rfl (h _) | ((try split) <;> simp)

theorem Plant.service_leaveLoc (n : Fin 8) :
    (x.leaveLoc s l).service n = if l = .service n ∧ (x.service n).content = some
        (.known s) then Slot.clear else x.service n := by
  by_cases h : ∃ m, l = .service m
  · obtain ⟨m, rfl⟩ := h
    simp only [Plant.leaveLoc, Location.service.injEq]
    by_cases h : m = n
    · subst h; split <;> simp [*]
    · split <;> simp [Plant.service_setService, h]
  · have h := not_exists.mp h
    rw [if_neg fun g => h n g.1]
    exact congrArg (·.get n) (Plant.leaveLoc_service s x h)

theorem Plant.leaveLoc_handoff {l : Location} (h : ∀ n, l ≠ .handoff n) :
    (x.leaveLoc s l).mou.handoff = x.mou.handoff := by
  unfold Plant.leaveLoc
  split
  all_goals first | exact absurd rfl (h _) | ((try split) <;> simp)

theorem Plant.handoff_leaveLoc (n : Fin 4) :
    (x.leaveLoc s l).handoff n = if l = .handoff n ∧ (x.handoff n).content = some
        (.known s) then Slot.clear else x.handoff n := by
  by_cases h : ∃ m, l = .handoff m
  · obtain ⟨m, rfl⟩ := h
    simp only [Plant.leaveLoc, Location.handoff.injEq]
    by_cases h : m = n
    · subst h; split <;> simp [*]
    · split <;> simp [Plant.handoff_setHandoff, h]
  · have h := not_exists.mp h
    rw [if_neg fun g => h n g.1]
    exact congrArg (·.get n) (Plant.leaveLoc_handoff s x h)

theorem Plant.acc_leaveLoc (a : Acc) : (x.leaveLoc s l).acc a
    = if l = .gripper a ∧ (x.acc a).gripper = .known s then { x.acc a with gripper := .unknownReel } else x.acc a := by
  by_cases h : ∃ b, l = .gripper b
  · obtain ⟨b, rfl⟩ := h
    simp only [Plant.leaveLoc, Location.gripper.injEq]
    by_cases h : b = a
    · subst h; split <;> simp [*]
    · split <;> simp [Plant.acc_updAcc, h]
  · have h := not_exists.mp h
    rw [if_neg fun g => h a g.1]
    unfold Plant.leaveLoc
    split
    case h_5 => exact absurd rfl (h _)
    all_goals (try split) <;> cases a <;> rfl

theorem Plant.enterLoc_entry {l : Location} (h : ∀ n, l ≠ .entry n) : (x.enterLoc s l).ltu.entry = x.ltu.entry := by
  unfold Plant.enterLoc
  split
  all_goals first | exact absurd rfl (h _) | (simp)

theorem Plant.entry_enterLoc (n : Fin 8) :
    (x.enterLoc s l).entry n = if l = .entry n then Slot.hold (.known s) (x.entry n).task else x.entry n := by
  by_cases h : ∃ m, l = .entry m
  · obtain ⟨m, rfl⟩ := h
    simp only [Plant.enterLoc, Location.entry.injEq]
    by_cases h : m = n
    · subst h; simp
    · simp [Plant.entry_setEntry, h]
  · have h := not_exists.mp h
    rw [if_neg (h n)]
    exact congrArg (·.get n) (Plant.enterLoc_entry s x h)

theorem Plant.enterLoc_service {l : Location} (h : ∀ n, l ≠ .service n) :
    (x.enterLoc s l).ltu.service = x.ltu.service := by
  unfold Plant.enterLoc
  split
  all_goals first | exact absurd rfl (h _) | (simp)

theorem Plant.service_enterLoc (n : Fin 8) :
    (x.enterLoc s l).service n = if l = .service n then Slot.hold (.known s) (x.service n).task else x.service n := by
  by_cases h : ∃ m, l = .service m
  · obtain ⟨m, rfl⟩ := h
    simp only [Plant.enterLoc, Location.service.injEq]
    by_cases h : m = n
    · subst h; simp
    · simp [Plant.service_setService, h]
  · have h := not_exists.mp h
    rw [if_neg (h n)]
    exact congrArg (·.get n) (Plant.enterLoc_service s x h)

theorem Plant.enterLoc_handoff {l : Location} (h : ∀ n, l ≠ .handoff n) :
    (x.enterLoc s l).mou.handoff = x.mou.handoff := by
  unfold Plant.enterLoc
  split
  all_goals first | exact absurd rfl (h _) | (simp)

theorem Plant.handoff_enterLoc (n : Fin 4) :
    (x.enterLoc s l).handoff n = if l = .handoff n then Slot.hold (.known s) (x.handoff n).task else x.handoff n := by
  by_cases h : ∃ m, l = .handoff m
  · obtain ⟨m, rfl⟩ := h
    simp only [Plant.enterLoc, Location.handoff.injEq]
    by_cases h : m = n
    · subst h; simp
    · simp [Plant.handoff_setHandoff, h]
  · have h := not_exists.mp h
    rw [if_neg (h n)]
    exact congrArg (·.get n) (Plant.enterLoc_handoff s x h)

theorem Plant.acc_enterLoc (a : Acc) :
    (x.enterLoc s l).acc a = if l = .gripper a then { x.acc a with gripper := .known s } else x.acc a := by
  by_cases h : ∃ b, l = .gripper b
  · obtain ⟨b, rfl⟩ := h
    simp only [Plant.enterLoc, Location.gripper.injEq, Plant.acc_updAcc]
    by_cases h : b = a
    · subst h; simp
    · simp [h]
  · have h := not_exists.mp h
    rw [if_neg (h a)]
    unfold Plant.enterLoc
    split
    case h_5 => exact absurd rfl (h _)
    all_goals cases a <;> rfl

@[simp] theorem Plant.leaveLoc_frame : (x.leaveLoc s l).tcu = x.tcu ∧ (x.leaveLoc s l).dru = x.dru ∧
    (x.leaveLoc s l).pru = x.pru
    ∧ (x.leaveLoc s l).adu = x.adu ∧ (x.leaveLoc s l).mgu = x.mgu ∧ (x.leaveLoc s l).out = x.out := by
  unfold Plant.leaveLoc
  split <;> (try split) <;> simp

@[simp] theorem Plant.enterLoc_frame : (x.enterLoc s l).tcu = x.tcu ∧ (x.enterLoc s l).dru = x.dru ∧
    (x.enterLoc s l).pru = x.pru
    ∧ (x.enterLoc s l).adu = x.adu ∧ (x.enterLoc s l).mgu = x.mgu ∧ (x.enterLoc s l).out = x.out := by
  unfold Plant.enterLoc
  split <;> simp

end Leave

@[simp] theorem Plant.evict_frame (k : Option Serial) (l : Location) (x : Plant) :
    (x.evict k l).ltu.entry = x.ltu.entry ∧ (x.evict k l).ltu.service = x.ltu.service ∧ (x.evict k l).tcu = x.tcu
      ∧ (x.evict k l).mou = x.mou ∧ (x.evict k l).dru = x.dru ∧ (x.evict k l).pru = x.pru ∧ (x.evict k l).adu = x.adu
      ∧ (x.evict k l).mgu = x.mgu ∧ (x.evict k l).out = x.out := by
  unfold Plant.evict
  split <;> simp

@[simp] theorem Plant.moveVol_frame (s : Serial) (l : Location) (x : Plant) :
    (x.moveVol s l).tcu = x.tcu ∧ (x.moveVol s l).dru = x.dru ∧ (x.moveVol s l).pru = x.pru
      ∧ (x.moveVol s l).adu = x.adu ∧ (x.moveVol s l).mgu = x.mgu ∧ (x.moveVol s l).out = x.out := by
  unfold Plant.moveVol
  split <;> simp

section Move
variable {s : Serial} {x : Plant} {v : Volume} (h : x.vol? s = some v) (l : Location)
include h

theorem Plant.entry_moveVol (n : Fin 8) : (x.moveVol s l).entry n
    = if l = .entry n then Slot.hold (.known s) ((x.leaveLoc s v.loc).entry n).task else
        (x.leaveLoc s v.loc).entry n := by
  rw [Plant.moveVol_some h, Plant.entry_enterLoc, Plant.entry_congr (x := x.leaveLoc s v.loc) (by simp)]

theorem Plant.service_moveVol (n : Fin 8) : (x.moveVol s l).service n
    = if l = .service n then Slot.hold (.known s) ((x.leaveLoc s v.loc).service n).task
      else (x.leaveLoc s v.loc).service n := by
  rw [Plant.moveVol_some h, Plant.service_enterLoc, Plant.service_congr (x := x.leaveLoc s v.loc) (by simp)]

theorem Plant.handoff_moveVol (n : Fin 4) : (x.moveVol s l).handoff n
    = if l = .handoff n then Slot.hold (.known s) ((x.leaveLoc s v.loc).handoff n).task
      else (x.leaveLoc s v.loc).handoff n := by
  rw [Plant.moveVol_some h, Plant.handoff_enterLoc, Plant.handoff_congr (x := x.leaveLoc s v.loc) (by simp)]

theorem Plant.acc_moveVol (a : Acc) : (x.moveVol s l).acc a
    = if l = .gripper a then { (x.leaveLoc s v.loc).acc a with gripper := .known s } else
        (x.leaveLoc s v.loc).acc a := by
  rw [Plant.moveVol_some h, Plant.acc_enterLoc, Plant.acc_congr (x := x.leaveLoc s v.loc) (by simp)]

end Move

/-! ### What a write of a location leaves of the tables (R6, R7) -/

section Move
variable {s : Serial} {x : Plant} {v : Volume} (h : x.vol? s = some v) (l : Location)
include h

theorem Plant.vol?_moveVol_self : (x.moveVol s l).vol? s = some (v.at_ l) := by
  rw [Plant.vol?_moveVol h, h, Option.map_some, Volume.moved, if_pos (Plant.vol?_serial h)]

theorem Plant.vol?_moveVol_other {q : Serial} (hq : q ≠ s) :
    (x.moveVol s l).vol? q = (x.vol? q).map (·.evicted (some s) l) := by
  rw [Plant.vol?_moveVol h]
  cases hu : x.vol? q with
  | none => rfl
  | some u => simp [Volume.moved, Plant.vol?_serial hu, hq]

theorem Plant.cell_moveVol_other {c : CellNo} (hv : v.loc ≠ .cell c) (hl : l ≠ .cell c) :
    (x.moveVol s l).cell c = x.cell c :=
  CellRec.eq_of (by simp) (by rw [Plant.occ_moveVol h, if_neg hl, if_neg fun g => hv g.1])
      (Plant.homeOf_moveVol s l c x)

/-- Every rack slot and gripper after a move: left, come to, or as it was. -/
theorem Plant.racks_moveVol :
    (∀ n, l = .service n → ((x.moveVol s l).service n).state = .occupied
      ∧ ((x.moveVol s l).service n).content = some (.known s))
    ∧ (∀ n, l = .entry n → ((x.moveVol s l).entry n).state = .occupied
      ∧ ((x.moveVol s l).entry n).content = some (.known s))
    ∧ (∀ n, v.loc = .service n → (x.service n).content = some (.known s) → l ≠ .service n →
      (x.moveVol s l).service n = Slot.clear)
    ∧ (∀ n, v.loc = .entry n → (x.entry n).content = some (.known s) → l ≠ .entry n →
      (x.moveVol s l).entry n = Slot.clear) := by
  refine ⟨fun n hl => ?_, fun n hl => ?_, fun n hv hc hl => ?_, fun n hv hc hl => ?_⟩
  · rw [Plant.service_moveVol h, if_pos hl]; exact ⟨rfl, rfl⟩
  · rw [Plant.entry_moveVol h, if_pos hl]; exact ⟨rfl, rfl⟩
  · rw [Plant.service_moveVol h, if_neg hl, Plant.service_leaveLoc, if_pos ⟨hv, hc⟩]
  · rw [Plant.entry_moveVol h, if_neg hl, Plant.entry_leaveLoc, if_pos ⟨hv, hc⟩]

theorem Plant.handoffs_moveVol :
    (∀ n, l = .handoff n → ((x.moveVol s l).handoff n).state = .occupied
      ∧ ((x.moveVol s l).handoff n).content = some (.known s))
    ∧ (∀ n, v.loc = .handoff n → (x.handoff n).content = some (.known s) → l ≠ .handoff n →
      (x.moveVol s l).handoff n = Slot.clear)
    ∧ (∀ a, l = .gripper a → ((x.moveVol s l).acc a).gripper = .known s)
    ∧ (∀ a, v.loc = .gripper a → (x.acc a).gripper = .known s → l ≠ .gripper a →
      ((x.moveVol s l).acc a).gripper = .unknownReel) := by
  refine ⟨fun n hl => ?_, fun n hv hc hl => ?_, fun a hl => ?_, fun a hv hc hl => ?_⟩
  · rw [Plant.handoff_moveVol h, if_pos hl]; exact ⟨rfl, rfl⟩
  · rw [Plant.handoff_moveVol h, if_neg hl, Plant.handoff_leaveLoc, if_pos ⟨hv, hc⟩]
  · rw [Plant.acc_moveVol h, if_pos hl]
  · rw [Plant.acc_moveVol h, if_neg hl, Plant.acc_leaveLoc, if_pos ⟨hv, hc⟩]

theorem Plant.racks_moveVol_other :
    (∀ n, v.loc ≠ .service n → l ≠ .service n → (x.moveVol s l).service n = x.service n)
    ∧ (∀ n, v.loc ≠ .entry n → l ≠ .entry n → (x.moveVol s l).entry n = x.entry n)
    ∧ (∀ n, v.loc ≠ .handoff n → l ≠ .handoff n → (x.moveVol s l).handoff n = x.handoff n)
    ∧ ∀ a, (x.moveVol s l).acc a = { x.acc a with gripper := ((x.moveVol s l).acc a).gripper }
      ∧ (v.loc ≠ .gripper a → l ≠ .gripper a → (x.moveVol s l).acc a = x.acc a) := by
  refine ⟨fun n hv hl => ?_, fun n hv hl => ?_, fun n hv hl => ?_, fun a => ⟨?_, fun hv hl => ?_⟩⟩
  · rw [Plant.service_moveVol h, if_neg hl, Plant.service_leaveLoc, if_neg fun g => hv g.1]
  · rw [Plant.entry_moveVol h, if_neg hl, Plant.entry_leaveLoc, if_neg fun g => hv g.1]
  · rw [Plant.handoff_moveVol h, if_neg hl, Plant.handoff_leaveLoc, if_neg fun g => hv g.1]
  · rw [Plant.acc_moveVol h, Plant.acc_leaveLoc]
    (repeat' split) <;> rfl
  · rw [Plant.acc_moveVol h, if_neg hl, Plant.acc_leaveLoc, if_neg fun g => hv g.1]

end Move

/-- The refile pending mark goes with MISFILED (R7). -/
theorem Volume.at_pending {v : Volume} {l : Location} (h : (v.at_ l).misfiled = false) :
    (v.at_ l).refilePending = false := by
  have h : v.misfiledAt l = false := h
  simp [Volume.at_, h]

/-- The form of the cell map, with its second part as a disjunction. -/
theorem cellsOk_iff {l : List CellRec} :
    cellsOk l ↔ l.Pairwise (fun a b => a.num < b.num) ∧ ∀ w ∈ l, w.occ ≠ .empty ∨ w.homeOf ≠ none := by
  simp only [cellsOk, not_and_or]

/-- A volume at a location of its own, or at a place that several share, stays there. -/
theorem Volume.evicted_stays {k : Option Serial} {u : Volume} {l : Location}
    (h : u.loc ≠ l ∨ l = .outside ∨ l = .unknown) :
    u.evicted k l = u := by
  rcases u.evicted_cases k l with e | ⟨-, h1, h2, -⟩
  · exact e
  · exact absurd h (by obtain ⟨g1, g2⟩ := Location.shared_eq_false.mp h2; simp [h1, g1, g2])

/-- Another volume that the table had at a place come to becomes UNKNOWN (R6). -/
theorem Volume.evicted_leaves {k : Option Serial} {u : Volume} {l : Location} (h : u.loc = l) (h1 : l ≠ .outside)
    (h2 : l ≠ .unknown) (hk : some u.serial ≠ k) :
    u.evicted k l = { u with loc := .unknown, misfiled := false, refilePending := false } := by
  simp [Volume.evicted, h, hk, Location.shared_eq_false.mpr ⟨h1, h2⟩, Volume.at_, Volume.misfiledAt]

/-- Settles O16. -/
theorem tablesReadWhatWasWrittenAndVolumesMove : Obligations.TablesReadWhatWasWrittenAndVolumesMove := by
  refine ⟨⟨fun x v => ⟨?_, fun q hq => ?_, fun hr => ⟨?_, fun hv => ?_, fun hv => ?_⟩, fun s => ⟨?_, fun q hq => ?_⟩,
    fun s f hf => ⟨?_, fun q hq => ?_⟩⟩, fun x r => ⟨Plant.cell_putCell_same r x,
      fun c hc => Plant.cell_putCell_other hc.symm x, fun hr ho => cellsOk_iff.mp (writeCell_ok r
          (cellsOk_iff.mpr ⟨hr, ho⟩))⟩⟩, fun x s v l h => ?_⟩
  · rw [Plant.vol?_putVol, if_pos rfl]
  · rw [Plant.vol?_putVol, if_neg hq]
  · exact insertVolume_rising v hr
  · rw [Plant.putVol_ltu, length_insertVolume v hr]; exact if_neg hv
  · rw [Plant.putVol_ltu, length_insertVolume v hr]; exact if_pos hv
  · rw [Plant.vol?_dropVol, if_pos rfl]
  · rw [Plant.vol?_dropVol, if_neg hq]
  · rw [Plant.vol?_updVol hf, if_pos rfl]
  · rw [Plant.vol?_updVol hf, if_neg hq]
  · obtain ⟨r1, r2, r3, r4⟩ := Plant.racks_moveVol h l
    obtain ⟨g1, g2, g3, g4⟩ := Plant.handoffs_moveVol h l
    refine ⟨v.at_ l, Plant.vol?_moveVol_self h l, rfl, rfl, rfl, rfl, Volume.misfiledAt_iff v l, Volume.at_pending,
      fun q u hq hu => ⟨fun hl => ?_, fun hl h1 h2 => ?_⟩, fun q hq => ?_, fun c hl => ?_, fun c hv ho hl => ?_,
      fun c hv hl => Plant.cell_moveVol_other h l hv hl,
          fun c => Plant.homeOf_moveVol s l c x, r1, r2, r3, r4, g1, g2, g3, g4,
      Plant.racks_moveVol_other h l, by simp⟩
    · rw [Plant.vol?_moveVol_other h l hq, hu, Option.map_some, Volume.evicted_stays hl]
    · rw [Plant.vol?_moveVol_other h l hq, hu, Option.map_some, Volume.evicted_leaves hl h1 h2]
      rw [Plant.vol?_serial hu]
      exact fun g => hq (Option.some.inj g)
    · rw [Plant.vol?_moveVol h, hq]; rfl
    · rw [Plant.occ_moveVol h, if_pos hl]
    · rw [Plant.occ_moveVol h, if_neg hl, if_pos ⟨hv, ho⟩]

end Sys2Proof.Machine
end

section
/-!
PROOFS. Serials and their order, the bay plan and the free-cell choice (R1-R3, R19, R229; O15).
-/
namespace Sys2Proof.Machine

/-! ### A serial's six digits (R3, R229) -/

theorem charDigit_iff {b : Byte} {d : Nat} : charDigit b = some d ↔ d < 36 ∧ digitChar d = b := by
  have hb := b.isLt
  constructor
  · intro h
    unfold charDigit at h
    dsimp only at h
    refine ⟨?_, BitVec.eq_of_toNat_eq ?_⟩
    · (repeat' split at h) <;> cases h <;> omega
    · rw [digitChar, BitVec.toNat_ofNat]
      (repeat' split at h) <;> cases h <;> split <;> omega
  · rintro ⟨hd, rfl⟩
    unfold charDigit digitChar
    dsimp only
    rw [BitVec.toNat_ofNat]
    (repeat' split) <;> first | omega | (congr 1; omega)

theorem digitChar_toNat {d : Nat} (h : d < 36) : (digitChar d).toNat = if d < 10 then 48 + d else 55 + d := by
  rw [digitChar, BitVec.toNat_ofNat]
  split <;> omega

/-- Digits before letters: the order of the characters is that of the digits. -/
theorem digitChar_lt_iff {a b : Nat} (ha : a < 36) (hb : b < 36) :
    (digitChar a).toNat < (digitChar b).toNat ↔ a < b := by
  rw [digitChar_toNat ha, digitChar_toNat hb]
  split <;> split <;> omega

theorem charDigit_ne_none {b : Byte} :
    charDigit b ≠ none ↔ (0x30 ≤ b.toNat ∧ b.toNat ≤ 0x39) ∨ (0x41 ≤ b.toNat ∧ b.toNat ≤ 0x5A) := by
  unfold charDigit
  dsimp only
  (repeat' split) <;> simp <;> omega

/-- The last `k` base-36 digits of a number, as characters. -/
def serialChars : Nat → Nat → List Byte
  | 0, _ => []
  | k + 1, n => digitChar (n / 36 ^ k % 36) :: serialChars k n

theorem serialBytes_eq_serialChars (s : Serial) : serialBytes s = serialChars 6 s.val := by
  simp [serialBytes, serialChars]

@[simp] theorem length_serialChars (k n : Nat) : (serialChars k n).length = k := by
  induction k with
  | zero => rfl
  | succ k ih => simp [serialChars, ih]

theorem digitsValue_serialChars (k n acc : Nat) : digitsValue (serialChars k n) acc = some
    (acc * 36 ^ k + n % 36 ^ k) := by
  induction k generalizing acc with
  | zero => simp [serialChars, digitsValue, Nat.mod_one]
  | succ k ih =>
    have hd := charDigit_iff.mpr ⟨Nat.mod_lt (n / 36 ^ k) (by omega), rfl⟩
    simp only [serialChars, digitsValue, hd, ih, Option.some.injEq]
    rw [Nat.mod_pow_succ, pow_succ]
    ring

/-- What six characters read: their digits are those of the number. -/
theorem serialChars_of_digitsValue {bs : List Byte} {acc n : Nat} (h : digitsValue bs acc = some n) :
    n / 36 ^ bs.length = acc ∧ serialChars bs.length n = bs := by
  induction bs generalizing acc with
  | nil => simpa [digitsValue, serialChars, eq_comm] using h
  | cons b bs ih =>
    unfold digitsValue at h
    split at h
    next d hd =>
      obtain ⟨hn, hc⟩ := ih h
      obtain ⟨hd, rfl⟩ := charDigit_iff.mp hd
      refine ⟨?_, ?_⟩
      · rw [List.length_cons, pow_succ, ← Nat.div_div_eq_div_mul, hn]; omega
      · rw [List.length_cons, serialChars, hc, hn]
        congr 2
        omega
    · cases h

theorem digitsValue_ne_none (bs : List Byte) (acc : Nat) :
    digitsValue bs acc ≠ none ↔ ∀ c ∈ bs, charDigit c ≠ none := by
  induction bs generalizing acc with
  | nil => simp [digitsValue]
  | cons b bs ih =>
    cases hd : charDigit b with
    | none => simp [digitsValue, hd]
    | some d => simp [digitsValue, hd, ih]

theorem serialOf_eq_some {b : List Byte} {s : Serial} :
    serialOf b = some s ↔ b.length = 6 ∧ digitsValue b 0 = some s.val := by
  unfold serialOf
  by_cases hl : b.length = 6
  · cases hv : digitsValue b 0 with
    | none => simp [hl]
    | some n =>
      have hn : n < 2176782336 := by
        have h := (serialChars_of_digitsValue hv).1
        rw [hl] at h
        omega
      simp [hl, hn, Fin.ext_iff]
  · simp [hl]

theorem serialOf_serialBytes (s : Serial) : serialOf (serialBytes s) = some s := by
  rw [serialOf_eq_some, serialBytes_eq_serialChars, digitsValue_serialChars]
  simp

theorem serialBytes_of_serialOf {b : List Byte} {s : Serial} (h : serialOf b = some s) : serialBytes s = b := by
  obtain ⟨hl, hv⟩ := serialOf_eq_some.mp h
  have hc := (serialChars_of_digitsValue hv).2
  rwa [hl, ← serialBytes_eq_serialChars] at hc

theorem serialOf_ne_none {b : List Byte} : serialOf b ≠ none ↔ b.length = 6 ∧ ∀ c ∈ b, charDigit c ≠ none := by
  rw [← digitsValue_ne_none b 0]
  constructor
  · intro h
    obtain ⟨s, hs⟩ := Option.ne_none_iff_exists'.mp h
    obtain ⟨hl, hv⟩ := serialOf_eq_some.mp hs
    exact ⟨hl, by simp [hv]⟩
  · rintro ⟨hl, hv⟩
    obtain ⟨n, hn⟩ := Option.ne_none_iff_exists'.mp hv
    have hb : n < 2176782336 := by
      have h := (serialChars_of_digitsValue hn).1
      rw [hl] at h
      omega
    rw [serialOf_eq_some.mpr ⟨hl, (show digitsValue b 0 = some (⟨n, hb⟩ : Serial).val from hn)⟩]
    simp

/-- The first characters in which two strings differ. -/
def CharsBefore (x y : List Byte) : Prop :=
  ∃ (p u v : List Byte) (a b : Byte), x = p ++ a :: u ∧ y = p ++ b :: v ∧ a.toNat < b.toNat

theorem charsBefore_cons {a b : Byte} {x y : List Byte} :
    CharsBefore (a :: x) (b :: y) ↔ a.toNat < b.toNat ∨ (a = b ∧ CharsBefore x y) := by
  constructor
  · rintro ⟨p, u, v, c, d, h1, h2, hcd⟩
    cases p with
    | nil =>
      obtain ⟨rfl, rfl⟩ := List.cons.inj h1
      obtain ⟨rfl, rfl⟩ := List.cons.inj h2
      exact .inl hcd
    | cons e p =>
      obtain ⟨rfl, rfl⟩ := List.cons.inj h1
      obtain ⟨rfl, rfl⟩ := List.cons.inj h2
      exact .inr ⟨rfl, p, u, v, c, d, rfl, rfl, hcd⟩
  · rintro (h | ⟨rfl, p, u, v, c, d, rfl, rfl, hcd⟩)
    · exact ⟨[], x, y, a, b, rfl, rfl, h⟩
    · exact ⟨a :: p, u, v, c, d, rfl, rfl, hcd⟩

theorem digits_lt_iff {w r q a b : Nat} (hr : r < w) (hq : q < w) : r + w * a < q + w * b ↔ a < b ∨
    (a = b ∧ r < q) := by
  have step : ∀ {c d : Nat}, c < d → w * c + w ≤ w * d := fun h => Nat.mul_le_mul_left w h
  rcases lt_trichotomy a b with h | rfl | h
  · have := step h; simp [h]; omega
  · simp
  · have := step h; constructor <;> omega

/-- The order of numbers is that of their digits from the left. -/
theorem charsBefore_serialChars (k n m : Nat) : CharsBefore (serialChars k n)
    (serialChars k m) ↔ n % 36 ^ k < m % 36 ^ k := by
  induction k with
  | zero =>
    simp only [serialChars, pow_zero, Nat.mod_one, lt_irrefl, iff_false]
    rintro ⟨p, u, v, a, b, h, -⟩
    simp at h
  | succ k ih =>
    have hn := Nat.mod_lt (n / 36 ^ k) (show 0 < 36 by omega)
    have hm := Nat.mod_lt (m / 36 ^ k) (show 0 < 36 by omega)
    have rn := Nat.mod_lt n (show 0 < 36 ^ k by positivity)
    have rm := Nat.mod_lt m (show 0 < 36 ^ k by positivity)
    rw [serialChars, serialChars, charsBefore_cons, ih, digitChar_lt_iff hn hm, Nat.mod_pow_succ, Nat.mod_pow_succ]
    have inj : digitChar (n / 36 ^ k % 36) = digitChar (m / 36 ^ k % 36) ↔ n / 36 ^ k % 36 = m / 36 ^ k % 36 := by
      refine ⟨fun h => ?_, fun h => by rw [h]⟩
      by_contra g
      rcases Nat.lt_or_gt_of_ne g with g | g
      · exact absurd ((digitChar_lt_iff hn hm).mpr g) (by rw [h]; omega)
      · exact absurd ((digitChar_lt_iff hm hn).mpr g) (by rw [h]; omega)
    rw [inj]
    exact (digits_lt_iff rn rm).symm

/-! ### The bay plan and the free-cell choice (R1, R2, R19) -/

theorem validCell_count : ((List.range 2048).filter validCell).length = 1744 := by decide +kernel

theorem storageBay_iff {b : Nat} : storageBay b = true ↔
    b < 128 ∧ ¬(8 ≤ b ∧ b ≤ 15) ∧ ¬(112 ≤ b ∧ b ≤ 119) ∧ b ≠ 56 ∧ b ≠ 64 ∧ b ≠ 72 := by
  simp only [storageBay, decide_eq_true_eq]

theorem reach_iff (a : Acc) (b : Nat) : reach a b = true ↔ (match a with | .A => b ≤ 79 | .B => 48 ≤ b ∧ b ≤ 127) := by
  cases a <;> simp [reach]

theorem validCell_iff (c : Nat) : validCell c = true ↔ (c < 2048 ∧ c / 16 ≠ 56 ∧ c / 16 ≠ 64 ∧ c / 16 ≠ 72
    ∧ ¬(8 ≤ c / 16 ∧ c / 16 ≤ 15) ∧ ¬(112 ≤ c / 16 ∧ c / 16 ≤ 119)) := by
  rw [validCell, storageBay_iff]; omega

theorem cell_within_A (c : Nat) : (Location.cell c).within .A = true ↔ c < 1280 := by
  simp only [Location.within, Location.bay, reach_iff]; omega

theorem cell_within_B (c : Nat) : (Location.cell c).within .B = true ↔ (768 ≤ c ∧ c < 2048) := by
  simp only [Location.within, Location.bay, reach_iff]; omega

/-- The distance of a bay from bay 64. -/
def bayDistance (b : Nat) : Nat := Int.natAbs ((b : Nat) - 64 : Int)

/-- The order of the free-cell choice: nearer bay 64, or as near with a lower number. -/
def Nearer (c b : Nat) : Prop :=
  bayDistance (c / 16) < bayDistance (b / 16) ∨ (bayDistance (c / 16) = bayDistance (b / 16) ∧ c ≤ b)

/-- The bays at one distance. -/
def baysAt (d : Nat) : List Nat := if d = 0 then [64] else [64 - d, 64 + d]

theorem mem_baysAt {d b : Nat} (hd : d ≤ 64) : b ∈ baysAt d ↔ bayDistance b = d := by
  unfold baysAt bayDistance
  split <;> simp <;> omega

theorem baysAt_rising (d : Nat) : (baysAt d).Pairwise (· < ·) := by
  unfold baysAt
  split
  · simp
  · simp; omega

/-- The bays are searched by distance, the lower first at one distance. -/
theorem searchBays_order :
    searchBays.Pairwise fun a b => bayDistance a < bayDistance b ∨ (bayDistance a = bayDistance b ∧ a < b) := by
  refine List.Pairwise.filter _ (List.pairwise_flatMap.mpr ⟨fun d hd => ?_, ?_⟩)
  · have hd : d ≤ 64 := by simpa [Nat.lt_succ_iff] using hd
    refine (baysAt_rising d).imp_of_mem fun {a b} ha hb h => .inr ⟨?_, h⟩
    rw [(mem_baysAt hd).mp ha, (mem_baysAt hd).mp hb]
  · refine List.pairwise_lt_range.imp_of_mem fun {d e} hd he h a ha b hb => .inl ?_
    have hd : d ≤ 64 := by simpa [Nat.lt_succ_iff] using hd
    have he : e ≤ 64 := by simpa [Nat.lt_succ_iff] using he
    rwa [(mem_baysAt hd).mp ha, (mem_baysAt he).mp hb]

theorem mem_searchBays {b : Nat} : b ∈ searchBays ↔ storageBay b = true := by
  unfold searchBays
  rw [List.mem_filter, and_iff_right_of_imp]
  intro h
  have hb := (storageBay_iff.mp h).1
  have hd : bayDistance b ≤ 64 := by unfold bayDistance; omega
  exact List.mem_flatMap.mpr ⟨bayDistance b, by simpa [Nat.lt_succ_iff] using hd, (mem_baysAt hd).mpr rfl⟩

/-- The bay of a cell named by bay and position. -/
theorem cell_bay {b p : Nat} (hp : p < 16) : (b * 16 + p) / 16 = b := by omega

theorem mem_searchCells {c : Nat} : c ∈ searchCells ↔ validCell c = true := by
  simp only [searchCells, List.mem_flatMap, List.mem_map, List.mem_range, mem_searchBays, validCell]
  constructor
  · rintro ⟨b, hb, p, hp, rfl⟩
    rwa [cell_bay hp]
  · exact fun h => ⟨c / 16, h, c % 16, Nat.mod_lt _ (by omega), Nat.div_add_mod' c 16⟩

theorem searchCells_order : searchCells.Pairwise Nearer := by
  refine List.pairwise_flatMap.mpr ⟨fun b _ => ?_, searchBays_order.imp fun {a b} h x hx y hy => ?_⟩
  · refine List.pairwise_map.mpr (List.pairwise_lt_range.imp_of_mem fun {p q} hp hq h => .inr
      ⟨?_, Nat.add_le_add_left h.le _⟩)
    simp only [List.mem_range] at hp hq
    rw [cell_bay hp, cell_bay hq]
  · simp only [List.mem_map, List.mem_range] at hx hy
    obtain ⟨p, hp, rfl⟩ := hx
    obtain ⟨q, hq, rfl⟩ := hy
    unfold Nearer
    rw [cell_bay hp, cell_bay hq]
    exact h.imp id fun h => ⟨h.1, by omega⟩

/-- The cell chosen qualifies, and comes before every other that does. -/
theorem Plant.freeCell_some {x : Plant} {c : CellNo} (h : x.freeCell = some c) :
    validCell c = true ∧ (x.cell c).occ = .empty ∧ (x.cell c).homeOf = none
      ∧ ∀ b, validCell b = true → (x.cell b).occ = .empty → (x.cell b).homeOf = none → Nearer c b := by
  obtain ⟨hc, l, r, hl, hn⟩ := List.find?_eq_some_iff_append.mp h
  obtain ⟨ho, hh⟩ := of_decide_eq_true hc
  refine ⟨mem_searchCells.mp (hl ▸ by simp), ho, hh, fun b hb ho hh => ?_⟩
  have hb : b ∈ l ++ c :: r := hl ▸ mem_searchCells.mpr hb
  have order : (l ++ c :: r).Pairwise Nearer := hl ▸ searchCells_order
  rcases List.mem_append.mp hb with hb | hb
  · simpa [ho, hh] using hn b hb
  · rcases List.mem_cons.mp hb with rfl | hb
    · exact .inr ⟨rfl, le_rfl⟩
    · exact (List.pairwise_cons.mp (List.pairwise_append.mp order).2.1).1 b hb

theorem Plant.freeCell_none {x : Plant} (h : x.freeCell = none) {b : CellNo} (hb : validCell b = true) :
    (x.cell b).occ ≠ .empty ∨ (x.cell b).homeOf ≠ none := by
  have hn := List.find?_eq_none.mp h b (mem_searchCells.mpr hb)
  by_contra g
  simp only [not_or, ne_eq, not_not] at g
  simp [g] at hn

/-- Settles O15. -/
theorem serialsBaysReachAndFreeCell : Obligations.SerialsBaysReachAndFreeCell := by
  refine ⟨⟨serialOf_serialBytes, fun b s => serialBytes_of_serialOf, fun b => ?_, fun s t => ?_⟩,
    ⟨validCell_count, fun c => ?_, fun c => ?_, fun c => ?_, fun d => ⟨?_, ?_⟩, fun n h a => ?_, fun a b => ?_⟩,
    fun x => ⟨fun c h => Plant.freeCell_some h, fun h b => Plant.freeCell_none h⟩⟩
  · rw [serialOf_ne_none]; simp only [charDigit_ne_none]
  · have hs : s.val < 36 ^ 6 := s.isLt
    have ht : t.val < 36 ^ 6 := t.isLt
    have hb := charsBefore_serialChars 6 s.val t.val
    rw [Nat.mod_eq_of_lt hs, Nat.mod_eq_of_lt ht, ← serialBytes_eq_serialChars, ← serialBytes_eq_serialChars] at hb
    exact hb.symm
  · exact validCell_iff c
  · exact cell_within_A c
  · exact cell_within_B c
  · simp only [Location.within, Location.bay, reach_iff, driveBay]; split <;> omega
  · simp only [Location.within, Location.bay, reach_iff, driveBay]; split <;> omega
  · cases a <;> simp [Location.within, Location.bay, reach]
  · simp [Location.within, eq_comm]

end Sys2Proof.Machine
end

section
/-!
PROOFS. The values of power-on (O2).
-/
namespace Sys2Proof.Machine

/-! ### The values of every block at power-on -/

@[simp] theorem get_replicate {α : Type} {n : Nat} (a : α) (i : Fin n) : (Vector.replicate n a).get i = a := by
  simp [Vector.get_eq_getElem]

@[simp] theorem Plant.boot_vol? (o : Out) (n : Nat) (s : Serial) : (Plant.boot o n).vol? s = none := rfl

@[simp] theorem Plant.boot_cell (o : Out) (n : Nat) (c : CellNo) :
    (Plant.boot o n).cell c = { num := c, occ := .empty, homeOf := none } := rfl

@[simp] theorem Plant.boot_entry (o : Out) (n : Nat) (i : Fin 8) : (Plant.boot o n).entry i = Slot.clear := by
  simp [Plant.entry, Plant.boot, Ltu.boot]

@[simp] theorem Plant.boot_service (o : Out) (n : Nat) (i : Fin 8) : (Plant.boot o n).service i = Slot.clear := by
  simp [Plant.service, Plant.boot, Ltu.boot]

@[simp] theorem Plant.boot_handoff (o : Out) (n : Nat) (i : Fin 4) : (Plant.boot o n).handoff i = Slot.clear := by
  simp [Plant.handoff, Plant.boot, Mou.boot]

@[simp] theorem Plant.boot_task? (o : Out) (n : Nat) (t : TaskNo) : (Plant.boot o n).task? t = none := by
  simp [Plant.task?, Plant.boot, Tcu.boot]

@[simp] theorem Plant.boot_acc (o : Out) (n : Nat) (a : Acc) : (Plant.boot o n).acc a = AccCtx.boot := by
  cases a <;> rfl

@[simp] theorem Plant.boot_drive (o : Out) (n : Nat) (d : DriveNo) :
    (Plant.boot o n).drive d = Drive.boot defaultDrive := by
  simp [Plant.drive, Plant.boot]

/-! ### The invariants at power-on -/

theorem defaultSettings_ok : defaultSettings.ok := by
  refine ⟨by decide, trivial, by decide, by decide, by decide, by decide, by decide, by decide, by decide, fun c => ?_,
    ⟨by decide, List.Pairwise.nil, by simp [defaultSettings]⟩, fun k => ?_, fun n => ?_, by decide, by decide⟩
  · rw [show defaultSettings.rates.get c = defaultRate from get_replicate _ c]; decide
  · revert k; decide
  · rw [show defaultSettings.sweep.get n = .fin from get_replicate _ n]; trivial

theorem Acu.boot_ok : Acu.boot.ok := by
  simp [Acu.ok, Acu.boot, inSequence, Account.boot]

theorem Oiu.boot_ok : Oiu.boot.ok := by
  simp [Oiu.ok, Oiu.boot]

theorem Fence.factory_ok : Fence.ok { working := factoryFence, stored := factoryFence, persist := none } := by
  simp [Fence.ok, factoryFence]

theorem Plant.boot_tablesOk (o : Out) (n : Nat) : (Plant.boot o n).tablesOk :=
  (Plant.tablesOk_iff_agree _).mpr (Plant.Agree.boot rfl)

theorem Plant.boot_requestsOk (o : Out) (n : Nat) : (Plant.boot o n).requestsOk := by
  simp [Plant.requestsOk, Plant.boot, Pru.boot, Tcu.boot]

theorem Plant.boot_promptsOk (o : Out) (n : Nat) : (Plant.boot o n).promptsOk := by
  simp [Plant.promptsOk, Plant.boot, Pru.boot]

theorem Plant.boot_legsOk (o : Out) (n : Nat) : (Plant.boot o n).legsOk := by
  simp [Plant.legsOk, Mou.legs, Plant.boot, Mou.boot, AccCtx.boot]

theorem Plant.boot_zoneOk (o : Out) (n : Nat) : (Plant.boot o n).zoneOk := by
  simp [Plant.zoneOk, AccCtx.boot]

theorem State.reset_bounded : State.reset.bounded := by
  simp [State.bounded, State.reset, Acu.boot, Drive.boot]

/-- Settles O2. -/
theorem resetLeavesTheRulesValues : Obligations.ResetLeavesTheRulesValues := by
  refine ⟨⟨rfl, rfl, rfl, rfl, rfl, fun f => get_replicate _ f, rfl, rfl, fun c => rfl,
    fun n => ⟨Plant.boot_entry _ _ n, Plant.boot_service _ _ n⟩, Plant.boot_handoff _ _,
    fun p => ⟨get_replicate _ p, get_replicate _ p⟩, rfl, Plant.boot_task? _ _, rfl, fun a => ?_, rfl, rfl,
    fun d => Plant.boot_drive _ _ d, rfl, rfl, rfl, rfl, rfl,
        fun n => get_replicate _ n, rfl, rfl, rfl, rfl, rfl, rfl, rfl,
    rfl, rfl, rfl, rfl, rfl, rfl, rfl, rfl, rfl, rfl, rfl⟩,
    Fence.factory_ok, ⟨by decide, by decide, by decide, by decide, defaultSettings_ok⟩, Oiu.boot_ok, Acu.boot_ok,
    Plant.boot_tablesOk _ _, Plant.boot_requestsOk _ _, Plant.boot_zoneOk _ _, State.reset_bounded,
    Plant.boot_legsOk _ _, Plant.boot_promptsOk _ _⟩
  cases a <;> exact ⟨rfl, rfl, rfl, rfl, rfl, rfl, rfl, rfl⟩

end Sys2Proof.Machine
end

section
/-!
PROOFS. LOAD VOLUME (R10, R11; O17).
-/
namespace Sys2Proof.Machine

/-! ### The fields and the checks of LOAD VOLUME (R10) -/

theorem VolumeLoad.of_givenBy {f : VolumeFields} {l : VolumeLoad} (h : l.givenBy f) : VolumeLoad.of f = some l := by
  obtain ⟨hs, hc, hr, hl, hh⟩ := h
  have hc : volClassOf f.cls = some l.cls := by rcases hc with ⟨a, b⟩ | ⟨a, b⟩ <;> simp [volClassOf, a, b]
  have hr : ringOf f.ring = some l.ring := by rcases hr with ⟨a, b⟩ | ⟨a, b⟩ <;> simp [ringOf, a, b]
  have hl : loadLocation f.locKind f.locNum = some l.loc := by
    rcases hl with ⟨a, b⟩ | ⟨a, b⟩ | ⟨a, b⟩ <;> simp [loadLocation, a, b]
  have hh : homeOf f.home = l.home := by
    rcases hh with ⟨a, b⟩ | ⟨a, b⟩ | ⟨a, a', b⟩
    · simp [homeOf, a, b]
    · simp [homeOf, a, b]
    · rw [homeOf, if_neg a, if_neg a', b]
  simp only [VolumeLoad.of, hs, hc, hr, hl, hh]

theorem VolumeLoad.loc_of_givenBy {f : VolumeFields} {l : VolumeLoad} (h : l.givenBy f) :
    (∃ c, l.loc = .cell c) ∨ l.loc = .outside ∨ l.loc = .unknown := by
  obtain ⟨-, -, -, hl, -⟩ := h
  exact hl.imp (fun ⟨_, e⟩ => ⟨_, e⟩) (.imp (·.2) (·.2))

theorem VolumeLoad.of_none {f : VolumeFields} (h : serialOf f.serial = none ∨ (f.cls ≠ 0 ∧ f.cls ≠ 1)
    ∨ (f.ring ≠ 0 ∧ f.ring ≠ 1) ∨ (f.locKind ≠ 0 ∧ f.locKind ≠ 6 ∧ f.locKind ≠ 7)) : VolumeLoad.of f = none := by
  have hn : serialOf f.serial = none ∨ volClassOf f.cls = none ∨ ringOf f.ring = none
      ∨ loadLocation f.locKind f.locNum = none := by
    refine h.imp id (Or.imp (fun ⟨a, b⟩ => ?_) (Or.imp (fun ⟨a, b⟩ => ?_) fun ⟨a, b, c⟩ => ?_))
    · rw [volClassOf, if_neg a, if_neg b]
    · rw [ringOf, if_neg a, if_neg b]
    · rw [loadLocation, if_neg a, if_neg b, if_neg c]
  unfold VolumeLoad.of
  split
  next h1 h2 h3 h4 => simp [h1, h2, h3, h4] at hn
  · rfl

theorem Plant.entryLoads_checks {l : VolumeLoad} {x : Plant} (h : x.entryLoads l) :
    ¬ (x.vol? l.serial).any (fun v => v.bound.isSome) = true ∧ ¬ (x.vol? l.serial).any (fun v => !v.loc.loadable) = true
      ∧ ¬ ((x.vol? l.serial).isNone && x.tableFull) = true := by
  obtain ⟨he, hn⟩ := h
  cases hv : x.vol? l.serial with
  | none => simpa [Plant.tableFull] using hn hv
  | some v =>
    obtain ⟨hb, hl⟩ := he v hv
    have hl : v.loc.loadable = true := by rcases hl with ⟨c, e⟩ | e | e <;> rw [e] <;> rfl
    simp [hb, hl]

section Checks
variable {l : VolumeLoad} {x : Plant} (h : x.entryLoads l)
include h

theorem Plant.loadChecks_cell {r : Reply} (hc : x.loadCell l = some r) : x.loadChecks l = .error r := by
  obtain ⟨h1, h2, h3⟩ := Plant.entryLoads_checks h
  simp only [Plant.loadChecks, if_neg h1, if_neg h2, if_neg h3, hc]

theorem Plant.loadChecks_resident (hc : x.loadCell l = none) (hl : l.cls = .resident) :
    x.loadChecks l = (x.loadHome l).map some := by
  obtain ⟨h1, h2, h3⟩ := Plant.entryLoads_checks h
  simp only [Plant.loadChecks, if_neg h1, if_neg h2, if_neg h3, hc, hl]

theorem Plant.loadChecks_visitor (hc : x.loadCell l = none) (hl : l.cls = .visitor) (hh : l.home = .absent)
    (hn : ∀ c, l.loc ≠ .cell c) : x.loadChecks l = .ok none := by
  obtain ⟨h1, h2, h3⟩ := Plant.entryLoads_checks h
  simp only [Plant.loadChecks, if_neg h1, if_neg h2, if_neg h3, hc, hl, hh]
  cases hloc : l.loc with
  | cell c => exact absurd hloc (hn c)
  | _ => rfl

theorem Plant.loadChecks_visitor_bad (hc : x.loadCell l = none) (hl : l.cls = .visitor)
    (hb : l.home ≠ .absent ∨ ∃ c, l.loc = .cell c) : x.loadChecks l = .error .badValue := by
  obtain ⟨h1, h2, h3⟩ := Plant.entryLoads_checks h
  simp only [Plant.loadChecks, if_neg h1, if_neg h2, if_neg h3, hc, hl]
  rcases hb with hb | ⟨c, hb⟩ <;> simp [hb]

end Checks

theorem Plant.loadCell_of_cellLoads {l : VolumeLoad} {x : Plant} (h : x.cellLoads l) : x.loadCell l = none := by
  unfold Plant.loadCell
  split
  next c hc =>
    obtain ⟨hv, hr, ho⟩ := h c hc
    rw [if_neg (by simp [hv])]
    split
    next v t e => exact absurd e (hr v t)
    next v e => rw [if_pos (ho v e)]
    · rfl
  · rfl

section Home
variable {l : VolumeLoad} {x : Plant} {c : CellNo}

/-- A cell is home to another volume than the one loaded. -/
def Plant.homeTaken (l : VolumeLoad) (c : CellNo) (x : Plant) : Bool := (x.cell c).homeOf.any (· ≠ l.serial)

theorem Plant.homeTaken_iff : x.homeTaken l c = true ↔ ¬ x.homeFree l c := by
  simp [Plant.homeTaken, Plant.homeFree, Option.any_eq_true]

theorem Plant.homeTaken_eq_false (hf : x.homeFree l c) : ¬ x.homeTaken l c = true :=
  fun h => Plant.homeTaken_iff.mp h hf

/-- The home of the free-cell choice, or NO CELL. -/
def Plant.homeChosen (x : Plant) : Except Reply CellNo := x.freeCell.elim (.error .noCell) .ok

/-- Checks 6 to 8 of R10 by the home field. -/
theorem Plant.loadHome_eq :
    (l.home = .cell c → x.loadHome l = if !validCell c then .error .badValue
      else if x.homeTaken l c then .error .occupied else .ok c)
    ∧ (l.home = .choose → x.loadHome l = x.homeChosen)
    ∧ (l.home = .absent → l.loc = .cell c → x.loadHome l = if x.homeTaken l c then x.homeChosen else .ok c)
    ∧ (l.home = .absent → (∀ d, l.loc ≠ .cell d) → x.loadHome l = x.homeChosen) := by
  unfold Plant.loadHome
  extract_lets chosen otherHome
  have hc : chosen = x.homeChosen := by
    simp only [chosen, Plant.homeChosen]
    cases x.freeCell <;> rfl
  have ho : otherHome = fun c => x.homeTaken l c := by
    funext d
    simp only [otherHome, Plant.homeTaken]
    cases (x.cell d).homeOf <;> rfl
  rw [hc, ho]
  refine ⟨fun h => by rw [h], fun h => by rw [h], fun h hl => by rw [h, hl], fun h hl => ?_⟩
  rw [h]
  cases e : l.loc with
  | cell d => exact absurd e (hl d)
  | _ => rfl

theorem Plant.loadHome_cell (hh : l.home = .cell c) (hv : validCell c = true) :
    (x.homeFree l c → x.loadHome l = .ok c) ∧ (¬ x.homeFree l c → x.loadHome l = .error .occupied) := by
  rw [Plant.loadHome_eq.1 hh, if_neg (by simp [hv])]
  exact ⟨fun hf => if_neg (Plant.homeTaken_eq_false hf), fun hf => if_pos (Plant.homeTaken_iff.mpr hf)⟩

theorem Plant.loadHome_cell_bad (hh : l.home = .cell c) (hv : validCell c = false) :
    x.loadHome l = .error .badValue := by
  rw [Plant.loadHome_eq.1 hh, if_pos (by simp [hv])]

theorem Plant.loadHome_here (hh : l.home = .absent) (hl : l.loc = .cell c) (hf : x.homeFree l c) :
    x.loadHome l = .ok c :=
  (Plant.loadHome_eq.2.2.1 hh hl).trans (if_neg (Plant.homeTaken_eq_false hf))

/-- The free-cell choice gives the home: asked for, or because the cell of the location is home to another volume. -/
theorem Plant.loadHome_chosen (hh : l.home = .choose ∨ (l.home = .absent ∧ ∀ c, l.loc = .cell c → ¬ x.homeFree l c)) :
    x.loadHome l = x.homeChosen := by
  obtain ⟨-, choose, -, away⟩ := Plant.loadHome_eq (l := l) (x := x) (c := 0)
  rcases hh with hh | ⟨hh, hc⟩
  · exact choose hh
  · by_cases hl : ∃ c, l.loc = .cell c
    · obtain ⟨c, hl⟩ := hl
      exact (Plant.loadHome_eq.2.2.1 hh hl).trans (if_pos (Plant.homeTaken_iff.mpr (hc c hl)))
    · exact away hh fun d e => hl ⟨d, e⟩

theorem Plant.loadHome_given {home : Option CellNo} (h : x.homeGiven l home) (hl : l.cls = .resident) :
    (x.loadHome l).map some = .ok home := by
  obtain ⟨hv, -⟩ | ⟨-, c, rfl, hc⟩ := h
  · simp [hv] at hl
  have hok : x.loadHome l = .ok c := by
    obtain ⟨hh, hv, hf⟩ | ⟨hh, hloc, hf⟩ | ⟨hh, hf⟩ := hc
    · exact (Plant.loadHome_cell hh hv).1 hf
    · exact Plant.loadHome_here hh hloc hf
    · simp [Plant.loadHome_chosen hh, Plant.homeChosen, hf]
  rw [hok]; rfl

end Home

/-- Everything R10 checks passes. -/
theorem Plant.loadChecks_given {l : VolumeLoad} {home : Option CellNo} {x : Plant} (he : x.entryLoads l)
    (hc : x.cellLoads l)
    (hh : x.homeGiven l home) : x.loadChecks l = .ok home := by
  have hcell := Plant.loadCell_of_cellLoads hc
  cases hl : l.cls with
  | resident => rw [Plant.loadChecks_resident he hcell hl, Plant.loadHome_given hh hl]
  | visitor =>
    obtain ⟨-, ha, hn, rfl⟩ | ⟨hr, -⟩ := hh
    · exact Plant.loadChecks_visitor he hcell hl ha hn
    · simp [hr] at hl

/-! ### The refile request on the tables (R7, R76) -/

theorem Plant.setOcc_ltu {x y : Plant} (h : y.ltu = x.ltu) {c : CellNo} {o : Occ} :
    (y.setOcc c o).ltu = (x.setOcc c o).ltu := by
  unfold Plant.setOcc Plant.evict
  simp only [Location.shared]
  simp [h, Plant.cell]

/-- What a refile request writes in the library tables: nothing, the refile pending mark, or the binding with the home's
reservation. -/
theorem Plant.refileRequest_tables {e : Env} {s : Serial} {x : Plant} {v : Volume} (h : x.vol? s = some v) :
    ∃ z : Plant, (x.refileRequest e s).ltu.records = z.ltu.records ∧ (z = x
      ∨ (v.misfiled = true ∧ z = x.updVol s ({ · with refilePending := true }))
      ∨ (v.misfiled = true ∧ ∃ t c, v.home = some c
        ∧ z = (x.updVol s ({ · with bound := some t, refilePending := false })).setOcc c (.reserved (some s) t))) := by
  unfold Plant.refileRequest
  simp only [h]
  split
  next hm =>
    split
    · unfold Plant.createRefile
      split
      next t c _ hc =>
        refine ⟨_, ?_, .inr (.inr ⟨hm, t, c, hc, rfl⟩)⟩
        rw [Plant.vol?_serial h]
        exact (Plant.planMove_frame _ _ _ _).1.trans (congrArg Ltu.records (Plant.setOcc_ltu (by simp)))
      · exact ⟨x, rfl, .inl rfl⟩
    · exact ⟨_, rfl, .inr (.inl ⟨hm, rfl⟩)⟩
  · exact ⟨x, rfl, .inl rfl⟩

theorem Plant.cell_setOcc (c d : CellNo) (o : Occ) (x : Plant) :
    (x.setOcc c o).cell d = if d = c then { x.cell c with occ := o } else x.cell d := by
  rw [Plant.setOcc, Plant.cell_putOcc, Plant.cell_congr (Plant.evict_cells _ _ x), Plant.cell_congr
      (Plant.evict_cells _ _ x)]

theorem Plant.vol?_setOcc (c : CellNo) (o : Occ) (q : Serial) (x : Plant) :
    (x.setOcc c o).vol? q = (x.vol? q).map (·.evicted none (.cell c)) :=
  Plant.vol?_map (by simp [Plant.setOcc, Plant.evict_volumes]) (by simp) q

/-- What the tables read after a refile request for a volume that is not at its home: its own record but for the binding
and the mark is as it was, and so is all else but the occupancy of its home, and who was believed there. -/
structure Plant.Refiled (v : Volume) (x y : Plant) : Prop where
  own : ∃ b p, y.vol? v.serial = some { v with bound := b, refilePending := p }
    ∧ (v.misfiled = false → b = v.bound ∧ p = v.refilePending)
  others : ∀ q u, q ≠ v.serial → x.vol? q = some u → (∀ c, v.home = some c → u.loc ≠ .cell c) → y.vol? q = some u
  absent : ∀ q, q ≠ v.serial → x.vol? q = none → y.vol? q = none
  homes : ∀ c, (y.cell c).homeOf = (x.cell c).homeOf
  occs : ∀ c, v.home ≠ some c → (y.cell c).occ = (x.cell c).occ
  settled : v.misfiled = false → ∀ c, (y.cell c).occ = (x.cell c).occ
  pool : y.ltu.pool = x.ltu.pool

theorem Plant.Refiled.congr {v : Volume} {x y z : Plant} (h : Plant.Refiled v x z) (e : y.ltu.records = z.ltu.records) :
    Plant.Refiled v x y := by
  have read := Plant.vol?_congr (congrArg Records.volumes e)
  have cell := Plant.cell_congr (congrArg Records.cells e)
  obtain ⟨h1, h2, h3, h4, h5, h6, h7⟩ := h
  exact ⟨by simpa only [read], by simpa only [read], by simpa only [read], by simpa only [cell], by simpa only [cell],
    by simpa only [cell], (congrArg Records.pool e).trans h7⟩

theorem Plant.Refiled.congr_left {v : Volume} {x y z : Plant} (h : Plant.Refiled v x y)
    (e : z.ltu.records = x.ltu.records) : Plant.Refiled v z y := by
  have read := Plant.vol?_congr (congrArg Records.volumes e)
  have cell := Plant.cell_congr (congrArg Records.cells e)
  obtain ⟨h1, h2, h3, h4, h5, h6, h7⟩ := h
  exact ⟨h1, by simpa only [read], by simpa only [read], by simpa only [cell], by simpa only [cell],
    by simpa only [cell], h7.trans (congrArg Records.pool e).symm⟩

theorem Plant.refileRequest_refiled {e : Env} {s : Serial} {x : Plant} {v : Volume} (h : x.vol? s = some v)
    (hm : v.misfiled = true → ∀ c, v.home = some c → v.loc ≠ .cell c) : Plant.Refiled v x (x.refileRequest e s) := by
  have hs : v.serial = s := Plant.vol?_serial h
  obtain ⟨z, hz, rfl | ⟨hv, rfl⟩ | ⟨hv, t, c, hc, rfl⟩⟩ := Plant.refileRequest_tables (e := e) h
  all_goals refine Plant.Refiled.congr ?_ hz
  · exact ⟨⟨v.bound, v.refilePending, (show z.vol? v.serial = some v by rw [hs, h]), fun _ => ⟨rfl, rfl⟩⟩,
      fun _ _ _ hq _ => hq, fun _ _ hq => hq, fun _ => rfl, fun _ _ => rfl,
      fun _ _ => rfl, rfl⟩
  · have read := fun q => Plant.vol?_updVol (f := ({ · with refilePending := true })) (fun _ => rfl) s q x
    refine ⟨⟨v.bound, true, by rw [read, if_pos hs, h]; rfl, by simp [hv]⟩, fun q u hq hu _ => ?_, fun q hq hu => ?_,
      fun _ => rfl, fun _ _ => rfl, fun _ _ => rfl, rfl⟩
    · rw [read, if_neg (hs ▸ hq), hu]
    · rw [read, if_neg (hs ▸ hq), hu]
  · have read := fun q => Plant.vol?_updVol (f := ({ · with bound := some t, refilePending := false }))
      (fun _ => rfl) s q x
    refine ⟨⟨some t, false, ?_, by simp [hv]⟩, fun q u hq hu hl => ?_, fun q hq hu => ?_, fun d => ?_, fun d hd => ?_,
      by simp [hv], by simp [Plant.setOcc]⟩
    · rw [Plant.vol?_setOcc, read, if_pos hs, h]
      simp [Volume.evicted, hm hv c hc]
    · rw [Plant.vol?_setOcc, read, if_neg (hs ▸ hq), hu]
      simp [Volume.evicted, hl c hc]
    · rw [Plant.vol?_setOcc, read, if_neg (hs ▸ hq), hu]; rfl
    · rw [Plant.cell_setOcc]; split
      · rename_i e; subst e; rfl
      · rfl
    · rw [Plant.cell_setOcc, if_neg fun e : d = c => hd (e ▸ hc)]; rfl

@[simp] theorem Plant.refileRequest_frame (e : Env) (s : Serial) (x : Plant) :
    (x.refileRequest e s).dru = x.dru ∧ (x.refileRequest e s).adu = x.adu := by
  unfold Plant.refileRequest Plant.createRefile
  (repeat' split) <;> simp [Plant.reserveCell, Plant.setOcc]

/-! ### LOAD VOLUME as a command (R10, R11) -/

theorem exec_loadVolume_error {h : Hdr} {f : VolumeFields} {l : VolumeLoad} {r : Reply} {s : State} (hs : s.manages h)
    (hf : VolumeLoad.of f = some l) (hc : s.plant.loadChecks l = .error r) :
    exec (.loadVolume h f) s = .next (s.replied h r .nothing) :=
  (State.mgmt_body hs _).trans (by simp only [hf, hc]; rfl)

theorem exec_loadVolume_ok {h : Hdr} {f : VolumeFields} {l : VolumeLoad} {home : Option CellNo} {s : State}
    (hs : s.manages h) (hf : VolumeLoad.of f = some l) (hc : s.plant.loadChecks l = .ok home) :
    exec (.loadVolume h f) s
      = .next { s with plant := ((s.plant.loadVolume s.env f l home).reply h .accepted .nothing).settle s.env } :=
  (State.mgmt_body hs _).trans (by simp only [hf, hc]; rfl)

theorem Plant.homing_frame (home : Option CellNo) (q : Option Serial) (x : Plant) :
    (x.homing home q).dru = x.dru ∧ (x.homing home q).adu = x.adu := by
  unfold Plant.homing; split <;> exact ⟨rfl, rfl⟩

theorem Plant.loadTables_pool (f : VolumeFields) (l : VolumeLoad) (home : Option CellNo) (x : Plant) :
    (x.loadTables f l home).ltu.pool.filter (fun q => q ≠ l.serial) = x.ltu.pool.filter (fun q => q ≠ l.serial) := by
  simp only [Plant.loadTables]
  rw [Plant.followScratch_pool]
  (repeat' split) <;> simp [List.filter_append]

/-- The plant after a LOAD VOLUME that passes its checks is its tables' writes and then the refile request (R7, R10). -/
theorem Plant.loadVolume_refiled (e : Env) (f : VolumeFields) (l : VolumeLoad) (home : Option CellNo) (x : Plant) :
    Plant.Refiled (l.placed f home) (x.loadTables f l home) (x.loadVolume e f l home)
      ∧ (x.loadVolume e f l home).dru = x.dru ∧ (x.loadVolume e f l home).adu = x.adu := by
  have own : (x.loadTables f l home).vol? l.serial = some (l.placed f home) := by
    rw [Plant.vol?_loadTables, if_pos rfl]
  have mis : (l.placed f home).misfiled = true → ∀ c, (l.placed f home).home = some c →
      (l.placed f home).loc ≠ .cell c := by
    intro hm c hc hl
    obtain ⟨-, d, hd, hn⟩ := (Volume.misfiledAt_iff _ _).mp ((Volume.at_marked l.loc (l.record f home l.loc)).1 ▸ hm)
    cases hd.symm.trans hl
    exact hn hc
  have frame : (x.loadTables f l home).dru = x.dru ∧ (x.loadTables f l home).adu = x.adu := by
    simp only [Plant.loadTables]
    have follow := fun b y => (Plant.followScratch_eq l.serial b y).1
    constructor <;> rw [follow] <;> simp [Plant.homing_frame]
  rw [Plant.loadVolume_eq]
  split
  · rename_i c _
    obtain ⟨h1, -, -, h4, h5, -⟩ := Plant.resolveForeign_frame e c (x.loadTables f l home)
    refine ⟨?_, by simp [frame], by simp [frame]⟩
    exact (Plant.refileRequest_refiled (by rw [Plant.vol?_congr (congrArg Ltu.volumes h1)]; exact own) mis).congr_left
      (congrArg Ltu.records h1.symm)
  · exact ⟨Plant.refileRequest_refiled own mis, by simp [frame], by simp [frame]⟩

/-- Settles O17. -/
theorem loadVolumeIsRefusedInOrderOrApplied : Obligations.LoadVolumeIsRefusedInOrderOrApplied := by
  refine ⟨fun h f s hs => ⟨fun hf => ?_, fun l hl => ⟨fun v hv hb => ?_, fun v hv hb h1 h2 h3 => ?_, fun hv hn => ?_,
    fun he => ⟨fun c hc hn => ?_, fun c hc hn ho => ?_, fun hc hv hb => ?_, fun hc hr => ⟨fun c hh hn => ?_,
    fun c hh hn hf => ?_, fun hh hf => ?_⟩⟩⟩⟩, fun h f l home s hs hl he hc hh => ?_⟩
  · exact (State.mgmt_body hs _).trans (by simp only [VolumeLoad.of_none hf]; rfl)
  all_goals have hof := VolumeLoad.of_givenBy hl
  · exact exec_loadVolume_error hs hof (by simp [Plant.loadChecks, hv, Option.isSome_iff_ne_none, hb])
  · have hloc : v.loc.loadable = false := by
      cases hloc : v.loc <;> first | rfl | simp_all
    exact exec_loadVolume_error hs hof (by simp [Plant.loadChecks, hv, hb, hloc])
  · exact exec_loadVolume_error hs hof (by simp [Plant.loadChecks, hv, Plant.tableFull, hn])
  · exact exec_loadVolume_error hs hof (Plant.loadChecks_cell he (by simp [Plant.loadCell, hc, hn]))
  · refine exec_loadVolume_error hs hof (Plant.loadChecks_cell he ?_)
    rcases ho with ⟨v, t, ho⟩ | ⟨v, hv, ho⟩ <;> simp [Plant.loadCell, hc, hn, ho]
    exact hv
  · exact exec_loadVolume_error hs hof (Plant.loadChecks_visitor_bad he (Plant.loadCell_of_cellLoads hc) hv hb)
  · refine exec_loadVolume_error hs hof ?_
    rw [Plant.loadChecks_resident he (Plant.loadCell_of_cellLoads hc) hr, Plant.loadHome_cell_bad hh hn]; rfl
  · refine exec_loadVolume_error hs hof ?_
    rw [Plant.loadChecks_resident he (Plant.loadCell_of_cellLoads hc) hr, (Plant.loadHome_cell hh hn).2 hf]; rfl
  · refine exec_loadVolume_error hs hof ?_
    rw [Plant.loadChecks_resident he
        (Plant.loadCell_of_cellLoads hc) hr, Plant.loadHome_chosen hh, Plant.homeChosen, hf]; rfl
  · have hok := exec_loadVolume_ok hs (VolumeLoad.of_givenBy hl) (Plant.loadChecks_given he hc hh)
    obtain ⟨hr, hd, ha⟩ := Plant.loadVolume_refiled s.env f l home s.plant
    obtain ⟨b, p, hown, hrest⟩ := hr.own
    have vols := Plant.vol?_loadTables f l home s.plant
    have mis := Volume.misfiledAt_iff (l.record f home l.loc) l.loc
    refine ⟨(s.plant.loadVolume s.env f l home).reply h .accepted .nothing, _, hok, hown, rfl, rfl, rfl, rfl, rfl, rfl, rfl,
      rfl, rfl, rfl, rfl, mis, hrest, fun c _ hc' => ?_, fun c hc' => ?_, fun w c hw hwc hne => ?_,
          fun q u hq hu hul => ?_,
      fun q hq hu => ?_, ?_, ?_, ?_, hd, ha⟩
    · exact (hr.homes c).trans ((Plant.homeOf_loadTables f l home s.plant c).trans (if_pos hc'))
    · have hocc := (Plant.occ_loadTables f l home s.plant c).trans (if_pos hc')
      by_cases hm : (l.placed f home).misfiled = true
      · obtain ⟨-, d, hd, hn⟩ := mis.mp hm
        obtain rfl : c = d := Location.cell.inj (hc'.symm.trans hd)
        exact (hr.occs c hn).trans hocc
      · exact (hr.settled (by simpa using hm) c).trans hocc
    · refine (hr.homes c).trans ((Plant.homeOf_loadTables f l home s.plant c).trans ?_)
      rw [if_neg hne, if_pos (by rw [hw]; exact hwc)]
    · refine hr.others q u hq ?_ fun c hc hloc => (hul c hloc).2 hc
      have stays : u.evicted (some l.serial) l.loc = u := by
        refine if_neg fun ⟨hsh, hloc, _⟩ => ?_
        obtain hk | ho | ho := VolumeLoad.loc_of_givenBy hl
        · obtain ⟨c, hc⟩ := hk
          exact (hul c (hloc.trans hc)).1 hc
        · simp [ho, Location.shared] at hsh
        · simp [ho, Location.shared] at hsh
      rw [vols, if_neg hq, hu, Option.map_some, stays]
    · exact hr.absent q hq (by rw [vols, if_neg hq, hu]; rfl)
    · exact (hr.pool ▸ Plant.mem_loadTables_pool f l home s.plant l.serial).trans (by simp)
    · exact (congrArg _ hr.pool).trans (Plant.loadTables_pool f l home s.plant)
    · simp [Plant.reply, Plant.sendC]

end Sys2Proof.Machine
end

section
/-!
SUPPORT. What the planning of a task's movement keeps (R56-R62, R73-R75).
-/
namespace Sys2Proof.Machine

/-! ### What goes out on the C-link is added to what was made (R215) -/

theorem List.foldl_prefix_of {α β γ : Type} (g : β → List γ) {f : β → α → β} (hf : ∀ y a, g y <+: g (f y a))
    (l : List α)
    (x : β) : g x <+: g (l.foldl f x) := by
  induction l generalizing x with
  | nil => exact List.prefix_rfl
  | cons a as ih => exact (hf x a).trans (ih _)

theorem Plant.setFlag_sent (e : Env) (f : EventFlag) (x : Plant) : x.out.c <+: (x.setFlag e f).out.c := by
  unfold Plant.setFlag
  extract_lets y
  split
  · exact List.foldl_prefix_of (fun z : Plant => z.out.c) (fun _ _ => List.prefix_append _ _) _ y
  · exact List.prefix_rfl

theorem Plant.judgeView_sent (e : Env) (c : Console) (x : Plant) : (x.judgeView e c).out.c = x.out.c := by
  unfold Plant.judgeView
  dsimp only
  split
  · rfl
  · cases c <;> rfl

theorem Plant.judgeViews_sent (e : Env) (x : Plant) : (x.judgeViews e).out.c = x.out.c := by
  unfold Plant.judgeViews
  split
  · rfl
  · rw [Plant.judgeView_sent, Plant.judgeView_sent]

theorem Plant.openPrompt_sent (e : Env) (r : PromptRequest) (x : Plant) : (x.openPrompt e r).out.c = x.out.c :=
  Plant.judgeViews_sent e _

theorem Plant.joinBacklog_sent (e : Env) (r : PromptRequest) (x : Plant) : x.out.c <+: (x.joinBacklog e r).out.c := by
  unfold Plant.joinBacklog
  rw [Plant.judgeViews_sent]
  exact Plant.setFlag_sent e _ ({ x with pru.backlog := x.pru.backlog ++ [r] } : Plant)

theorem Plant.place_sent (e : Env) (r : PromptRequest) (x : Plant) : x.out.c <+: (x.place e r).out.c := by
  unfold Plant.place
  extract_lets room
  split
  · rw [Plant.openPrompt_sent]
  · split
    · exact Plant.joinBacklog_sent e r x
    · split
      · exact List.prefix_rfl
      · split
        · exact Plant.joinBacklog_sent e r ({ x with pru.backlog := room } : Plant)
        · exact List.prefix_rfl

theorem Plant.request_sent (e : Env) (k : PromptKind) (p : Params) (o : PromptOwner) (x : Plant) :
    x.out.c <+: (x.request e k p o).1.out.c := by
  unfold Plant.request
  dsimp only
  split
  · exact List.prefix_rfl
  · exact Plant.place_sent e _ ({ x with pru.lastNumber := x.pru.nextNumber 225 x.pru.lastNumber } : Plant)

theorem Plant.acc_endLeg {e : Env} {a b : Acc} {x : Plant} (h : b ≠ a) : (x.endLeg e a).acc b = x.acc b := by
  unfold Plant.endLeg Plant.goIdle Plant.withdrawClaim
  cases a <;> cases b <;> first | exact absurd rfl h | ((repeat' split) <;> rfl)

/-! ### What the planning of a task's movement keeps -/

/-- A task but for what its plan writes: its state, its wait, its prompt, its movement and its slots. -/
def Task.fixed (k : Task) : Task :=
  { k with state := .moving, wait := none, handoff := none, service := none, prompt := none, work := none, waiter := none,
           faulted := none, holding := none }

/-- A plan of the task's movement: it writes the task's own record, and there only what a plan writes; no entry slot, no
table, no drive, no audit list and no request; no accessor without a leg; and what goes out on the C-link follows what was made. -/
structure Plant.Plans (t : TaskNo) (x y : Plant) : Prop where
  others : ∀ u, u ≠ t → y.task? u = x.task? u
  own : (y.task? t).map Task.fixed = (x.task? t).map Task.fixed
  entries : y.ltu.entry = x.ltu.entry
  records : y.ltu.records = x.ltu.records
  drives : y.dru = x.dru
  audits : y.adu = x.adu
  requests : y.tcu.requests = x.tcu.requests
  sent : x.out.c <+: y.out.c
  legless : ∀ a, (x.acc a).leg = none → y.acc a = x.acc a

namespace Plant.Plans
variable {t : TaskNo} {x y z : Plant}

theorem refl (t : TaskNo) (x : Plant) : Plant.Plans t x x :=
  ⟨fun _ _ => rfl, rfl, rfl, rfl, rfl, rfl, rfl, List.prefix_rfl, fun _ _ => rfl⟩

theorem trans (h : Plant.Plans t x y) (g : Plant.Plans t y z) : Plant.Plans t x z where
  others u hu := (g.others u hu).trans (h.others u hu)
  own := g.own.trans h.own
  entries := g.entries.trans h.entries
  records := g.records.trans h.records
  drives := g.drives.trans h.drives
  audits := g.audits.trans h.audits
  requests := g.requests.trans h.requests
  sent := h.sent.trans g.sent
  legless a ha := (g.legless a (by rwa [h.legless a ha])).trans (h.legless a ha)

theorem after (g : Plant.Plans t y z) (h : Plant.Plans t x y) : Plant.Plans t x z := h.trans g

/-- The task's record after a plan. -/
theorem task (h : Plant.Plans t x y) {k : Task} (hk : x.task? t = some k) :
    ∃ m, y.task? t = some m ∧ m.fixed = k.fixed := by
  simpa [hk] using h.own

/-- A change of the task's own record, of what a plan writes. -/
theorem updTask (t : TaskNo) (x : Plant) {f : Task → Task} (hf : ∀ k, (f k).fixed = k.fixed) :
    Plant.Plans t x (x.updTask t f) where
  others u hu := Plant.task?_updTask_other hu.symm f x
  own := by rw [Plant.task?_updTask_same, Option.map_map]; exact congrArg (Option.map · _) (funext hf)
  entries := rfl
  records := rfl
  drives := rfl
  audits := rfl
  requests := rfl
  sent := List.prefix_rfl
  legless _ _ := rfl

/-- A change of a service slot, of a handoff slot, of the prompts or of the frames made. -/
theorem of_tasks (ht : y.tcu.tasks = x.tcu.tasks) (hq : y.tcu.requests = x.tcu.requests)
    (he : y.ltu.entry = x.ltu.entry) (hr : y.ltu.records = x.ltu.records)
    (hd : y.dru = x.dru) (ha : y.adu = x.adu) (ho : x.out.c <+: y.out.c)
    (hm : ∀ a, (x.acc a).leg = none → y.acc a = x.acc a) : Plant.Plans t x y where
  others u _ := by unfold Plant.task?; rw [ht]
  own := by unfold Plant.task?; rw [ht]
  entries := he
  records := hr
  drives := hd
  audits := ha
  requests := hq
  sent := ho
  legless := hm

/-- A change of the prompts and of the frames made alone. -/
theorem of_frame (hl : y.ltu = x.ltu) (ht : y.tcu.tasks = x.tcu.tasks) (hq : y.tcu.requests = x.tcu.requests)
    (hm : y.mou = x.mou) (hd : y.dru = x.dru)
    (ha : y.adu = x.adu) (ho : x.out.c <+: y.out.c) : Plant.Plans t x y :=
  of_tasks ht hq (by rw [hl]) (by rw [hl]) hd ha ho fun a _ => by cases a <;> simp [Plant.acc, hm]

variable (e : Env)

theorem setService (n : Fin 8) (s : Slot) (x : Plant) : Plant.Plans t x (x.setService n s) :=
  of_tasks rfl rfl rfl rfl rfl rfl List.prefix_rfl fun a _ => by cases a <;> rfl

theorem setHandoff (h : Fin 4) (s : Slot) (x : Plant) : Plant.Plans t x (x.setHandoff h s) :=
  of_tasks rfl rfl rfl rfl rfl rfl List.prefix_rfl fun a _ => by cases a <;> rfl

theorem status (p : Path) (tag : Option Byte) (m : Mark) (st : Status) (x : Plant) :
    Plant.Plans t x (x.status p tag m st) :=
  of_frame rfl rfl rfl rfl rfl rfl (List.prefix_append _ _)

theorem interim (u : TaskNo) (st : Status) (x : Plant) : Plant.Plans t x (x.interim u st) := by
  unfold Plant.interim
  split
  · split
    · split
      · exact refl t x
      · exact status _ _ _ st x
    · exact refl t x
  · exact refl t x

theorem request (k : PromptKind) (p : Params) (o : PromptOwner) (x : Plant) : Plant.Plans t x
    (x.request e k p o).1 := by
  obtain ⟨hl, ht, hm, hd, ha⟩ := Plant.request_frame e k p o x
  exact of_frame hl (by rw [ht]) (by rw [ht]) hm hd ha (Plant.request_sent e k p o x)

theorem enterWaiting (r : WaitReason) (x : Plant) : Plant.Plans t x (x.enterWaiting t r) := by
  unfold Plant.enterWaiting
  split
  · split
    · exact updTask t x fun _ => rfl
    · split
      · exact refl t x
      · exact after (interim t _ _) (updTask t x fun _ => rfl)
  · exact refl t x

theorem enterOpwait (n : Nat) (kd : PromptKind) (x : Plant) : Plant.Plans t x (x.enterOpwait t n kd) := by
  unfold Plant.enterOpwait
  split
  · split
    · exact updTask t x fun _ => rfl
    · exact after (interim t _ _) (updTask t x fun _ => rfl)
  · exact refl t x

theorem enterMoving (x : Plant) : Plant.Plans t x (x.enterMoving t) := by
  unfold Plant.enterMoving
  split
  · split
    · exact updTask t x fun _ => rfl
    · extract_lets y
      have hy : Plant.Plans t x y := updTask t x fun _ => rfl
      split
      · exact hy
      · exact hy.trans (interim t _ y)
  · exact refl t x

theorem taskPrompt (kd : PromptKind) (p : Params) (x : Plant) : Plant.Plans t x (x.taskPrompt e t kd p) :=
  (request e kd p (.task t) x).trans (enterOpwait _ kd _)

/-- No leg of an accessor that has none is ended. -/
theorem dropLegs (u : TaskNo) (x : Plant) : Plant.Plans t x (x.dropLegs e u) := by
  obtain ⟨hl, ht, hd, -, ha, -, ho⟩ := Plant.dropLegs_frame e u x
  refine of_tasks (by rw [ht]) (by rw [ht]) (by rw [hl]) (by rw [hl]) hd ha (by rw [ho]) ?_
  unfold Plant.dropLegs
  extract_lets m y
  have start : ∀ a, (x.acc a).leg = none → y.acc a = x.acc a := fun a _ => by cases a <;> rfl
  refine List.foldlRecOn (motive := fun z : Plant => ∀ a, (x.acc a).leg = none → z.acc a = x.acc a) _ _ start
      fun z hz b _ a ha => ?_
  split
  · rename_i l hl
    have hab : a ≠ b := by rintro rfl; rw [hz a ha, ha] at hl; cases hl
    refine Eq.trans ?_ (hz a ha)
    split
    · split
      · rw [Plant.acc_updAcc, if_neg hab.symm]
      · exact Plant.acc_endLeg hab
    · rfl
  · exact hz a ha

theorem supersede (u : TaskNo) (x : Plant) : Plant.Plans t x (x.supersede e u) := by
  refine (dropLegs e u x).trans (of_tasks rfl rfl rfl rfl rfl rfl List.prefix_rfl fun a ha => ?_)
  have none_map : ∀ c : AccCtx, c.leg = none → { c with leg := c.leg.map (·.supersede u) } = c := fun c hc => by
    obtain ⟨⟩ := c; cases hc; rfl
  cases a
  · exact none_map _ ha
  · exact none_map _ ha

theorem becomeWaiter (w : Work) (r : Waiter) (x : Plant) : Plant.Plans t x (x.becomeWaiter e t w r) :=
  (supersede e t x).trans (updTask t _ fun _ => rfl)

theorem waitService (w : Work) (x : Plant) : Plant.Plans t x (x.waitService e t w) := by
  unfold Plant.waitService
  extract_lets y
  have hy : Plant.Plans t x y := (becomeWaiter e w .service x).trans (enterWaiting _ _)
  split
  · exact hy
  · exact after (request e _ _ _ _) (hy.trans (of_frame rfl rfl rfl rfl rfl rfl List.prefix_rfl))

theorem secureService (w : Work) (x : Plant) : Plant.Plans t x (x.secureService e t w).1 := by
  unfold Plant.secureService
  split
  · exact refl t x
  · split
    · exact after (updTask t _ fun _ => rfl) (setService _ _ x)
    · exact waitService e w x

theorem planFind (kd : PromptKind) (x : Plant) : Plant.Plans t x (x.planFind e t kd) := by
  unfold Plant.planFind
  split
  · exact refl t x
  · exact after (taskPrompt e kd _ _) (updTask t x fun _ => rfl)

theorem legQueued (l : Leg) (x : Plant) : Plant.Plans t x (x.legQueued t l) := by
  unfold Plant.legQueued
  split
  · exact enterWaiting _ x
  · exact enterMoving x

theorem queueLeg (l : Leg) (x : Plant) : Plant.Plans t x (x.queueLeg e l) :=
  of_tasks rfl rfl rfl rfl rfl rfl List.prefix_rfl fun a _ => by cases a <;> rfl

theorem queueTaskLeg (w : Work) (src : Location) (dst onward : Option Location) (capA capB : Bool) (x : Plant) :
    Plant.Plans t x (x.queueTaskLeg e t w src dst onward capA capB) := by
  unfold Plant.queueTaskLeg
  split
  · exact refl t x
  · exact after (legQueued _ _) (after (queueLeg e _ _) (updTask t x fun _ => rfl))

theorem releaseHandoff (x : Plant) : Plant.Plans t x (x.releaseHandoff t) := by
  unfold Plant.releaseHandoff
  split
  · split
    · exact after (setHandoff _ _ _) (updTask t x fun _ => rfl)
    · exact refl t x
  · exact refl t x

theorem releaseService (x : Plant) : Plant.Plans t x (x.releaseService t) := by
  unfold Plant.releaseService
  split
  · split
    · exact after (setService _ _ _) (updTask t x fun _ => rfl)
    · exact refl t x
  · exact refl t x

theorem route (w : Work) (src dst : Location) (x : Plant) : Plant.Plans t x (x.route e t w src dst) := by
  unfold Plant.route
  extract_lets held
  split
  · exact (releaseHandoff x).trans (queueTaskLeg e w _ _ _ _ _ _)
  · split
    · exact after (queueTaskLeg e w _ _ _ _ _ _) (after (updTask t _ fun _ => rfl) (setHandoff _ _ x))
    · exact (becomeWaiter e w _ x).trans (enterWaiting _ _)

theorem moveFrom (w : Work) (k : Task) (src : Location) (x : Plant) : Plant.Plans t x (x.moveFrom e t w k src) := by
  unfold Plant.moveFrom
  extract_lets z fromEntry secured
  have hz : Plant.Plans t x z := updTask t x fun _ => rfl
  have hs : Plant.Plans t x secured.1 := by
    unfold secured
    split
    · exact hz.trans (secureService e w z)
    · exact hz
  have hsec := hz.trans (secureService e w z)
  have slot : Plant.Plans t x (match z.secureService e t w with
      | (y, some n) => y.route e t w src (.service n)
      | (y, none) => y) := by
    split <;> rename_i h <;> rw [h] at hsec
    · exact hsec.trans (route e w _ _ _)
    · exact hsec
  cases w with
  | toDrive =>
    dsimp only
    split
    · exact hz
    · split
      · exact hs
      · split
        · exact hs.trans (enterWaiting _ _)
        · exact hs.trans (route e _ _ _ _)
  | store =>
    dsimp only
    split
    · exact hz
    · split
      · exact hs
      · exact hs.trans (route e _ _ _ _)
  | identify =>
    dsimp only
    split <;> rename_i h <;> rw [h] at hsec
    · exact hsec.trans (queueTaskLeg e _ _ _ _ _ _ _)
    · exact hsec
  | carry => exact hz
  | _ => exact slot

theorem planMove (w : Work) (x : Plant) : Plant.Plans t x (x.planMove e t w) := by
  rw [Plant.planMove_eq]
  extract_lets y
  have hy : Plant.Plans t x y := updTask t x fun _ => rfl
  split
  · exact hy
  · split
    · exact after (enterMoving _) (hy.trans (updTask t y fun _ => rfl))
    · split
      · exact hy
      · exact hy.trans (planFind e _ y)
      · exact hy.trans (planFind e _ y)
      · exact hy.trans (moveFrom e w _ _ y)

theorem slotPrompt (kd : PromptKind) (n : Fin 8) (b : Bool) (x : Plant) : Plant.Plans t x
    (x.slotPrompt e t kd n b) := by
  unfold Plant.slotPrompt
  split
  · exact refl t x
  · exact taskPrompt e kd _ x

/-- Removal of a reel that stands in no service slot (R73). -/
theorem planRemove {k : Task} (x : Plant) (hk : x.task? t = some k) (hl : ∀ n, x.reelAt k ≠ some (.service n)) :
    Plant.Plans t x (x.planRemove e t) := by
  unfold Plant.planRemove
  split
  · rename_i n hn
    exact absurd (by simpa [hk] using hn) (hl n)
  · exact planMove e _ x

end Plant.Plans

end Sys2Proof.Machine
end

section
/-!
PROOFS. ENTER and EJECT (R20, R74, R75; O27).
-/
namespace Sys2Proof.Machine

/-! ### The record a new task takes (R44) -/

theorem Plant.mem_freeRecords (t : TaskNo) (x : Plant) : t ∈ x.freeRecords ↔ x.task? t = none := by
  simp [Plant.freeRecords]

theorem Plant.freeRecord_none {x : Plant} (h : ∀ t, x.task? t ≠ none) : x.freeRecord = none := by
  have he : x.freeRecords = [] := List.eq_nil_iff_forall_not_mem.mpr fun t ht => h t ((Plant.mem_freeRecords t x).mp ht)
  simp [Plant.freeRecord, he]

/-- With a record free, one of the free ones is given. -/
theorem Plant.freeRecord_some {x : Plant} {r : TaskNo} (h : x.task? r = none) :
    ∃ t, x.freeRecord = some t ∧ x.task? t = none := by
  have hl : Config.recordChoice x.tcu.choices % x.freeRecords.length < x.freeRecords.length :=
    Nat.mod_lt _ (List.length_pos_of_mem ((Plant.mem_freeRecords r x).mpr h))
  refine ⟨_, List.getElem?_eq_getElem hl, (Plant.mem_freeRecords _ x).mp (List.getElem_mem hl)⟩

theorem Plant.task?_newTask (t u : TaskNo) (k : Task) (x : Plant) :
    (x.newTask t k).task? u = if u = t then some k else x.task? u := by
  by_cases h : u = t
  · subst h; exact (Plant.task?_putTask_same u _ x).trans (if_pos rfl).symm
  · exact (Plant.task?_putTask_other (Ne.symm h) _ x).trans (if_neg h).symm

/-! ### Keys that name no prompt (R160, R164) -/

theorem State.keyed_run {s : State} (h : s.keys) (c : Console) (f : State → State) :
    s.run (State.keyed c f) = .next (f s) := by
  obtain ⟨hf, hl⟩ := h
  rw [State.run_free hf, State.keyed, if_pos (by rcases hl with e | e <;> rw [e] <;> rfl)]

theorem keyedSlot_of_lt {k : Keyed} {n : Fin 8} (h : k.number.toNat = n.val) : keyedSlot k = some n := by
  have hb : k.number ≠ 0xFF := fun e => by rw [e] at h; have := n.isLt; simp at h; omega
  have hk : keyedNumber k = some n.val := by rw [keyedNumber, if_neg hb, h]
  simp [keyedSlot, hk]

theorem keyedSlot_of_gt {k : Keyed} (h : 7 < k.number.toNat) : keyedSlot k = none := by
  unfold keyedSlot
  split
  · rename_i m hm
    rw [dif_neg]
    unfold keyedNumber at hm
    split at hm <;> simp at hm
    omega
  · rfl

/-! ### ENTER (R20, R74) -/

theorem exec_enterKey_beeps {k : Keyed} {s : State} (hs : s.keys)
    (h : 7 < k.number.toNat ∨ (∀ t, s.plant.task? t ≠ none)
      ∨ ∃ n : Fin 8, k.number.toNat = n.val ∧ (s.plant.entry n).state ≠ .empty) :
    exec (.enterKey k) s = .next (s.withM (.beep k.console)) := by
  refine (State.keyed_run hs _ _).trans ?_
  rcases h with h | h | ⟨n, hn, he⟩
  · rw [keyedSlot_of_gt h]; rfl
  · rw [Plant.freeRecord_none h]
    cases keyedSlot k <;> rfl
  · rw [keyedSlot_of_lt hn]
    cases s.plant.freeRecord with
    | none => rfl
    | some t => simp only [if_neg he]; rfl

theorem exec_enterKey_taken {k : Keyed} {s : State} (hs : s.keys) {n : Fin 8} {t : TaskNo} (hn : k.number.toNat = n.val)
    (he : (s.plant.entry n).state = .empty) (ht : s.plant.freeRecord = some t) :
    exec (.enterKey k) s = .next { s with plant := (s.plant.enterTask s.env t n).settle s.env } := by
  refine (State.keyed_run hs _ _).trans ?_
  rw [keyedSlot_of_lt hn, ht]
  simp only [if_pos he]
  rfl

/-- The record of an ENTER task before its movement is planned (R74). -/
def Task.entering (e : Env) (n : Fin 8) : Task := { Task.new .enter .operator e.tick with source := some (.entry n) }

/-- The plant before an ENTER task's movement is planned: the record taken, and the slot held for it (R20, R74). -/
def Plant.entering (e : Env) (t : TaskNo) (n : Fin 8) (x : Plant) : Plant :=
  (x.newTask t (Task.entering e n)).setEntry n (Slot.hold .unknown (some t))

theorem Plant.enterTask_plans (e : Env) (t : TaskNo) (n : Fin 8) (x : Plant) :
    Plant.Plans t (x.entering e t n) (x.enterTask e t n) := by
  have hk : (x.entering e t n).task? t = some (Task.entering e n) := (Plant.task?_newTask t t _ x).trans (if_pos rfl)
  have he : x.enterTask e t n = (x.entering e t n).planMove e t .identify := by
    change (x.entering e t n).planReel e t = _
    rw [Plant.planReel, hk]
    rfl
  exact he ▸ Plant.Plans.planMove e _ _

/-! ### EJECT (R75) -/

/-- The record of an EJECT task before its movement is planned (R75). -/
def Task.ejecting (e : Env) (s : Serial) : Task := { Task.new .eject .management e.tick with serial := some s }

/-- The plant before an EJECT task's movement is planned: the record taken, the volume bound, ACCEPTED replied (R75). -/
def Plant.ejecting (e : Env) (h : Hdr) (t : TaskNo) (s : Serial) (x : Plant) : Plant :=
  ((x.newTask t (Task.ejecting e s)).updVol s ({ · with bound := some t })).reply h .accepted (.taskNumber t)

theorem Plant.vol?_ejecting {s : Serial} {x : Plant} {v : Volume} (hv : x.vol? s = some v) (e : Env) (h : Hdr)
    (t : TaskNo) :
    (x.ejecting e h t s).vol? s = some { v with bound := some t } := by
  refine (Plant.vol?_updVol (f := ({ · with bound := some t })) (fun _ => rfl) s s
      (x.newTask t (Task.ejecting e s))).trans ?_
  rw [if_pos rfl]
  exact congrArg (Option.map _) hv

theorem Plant.ejectTask_plans {s : Serial} {x : Plant} {v : Volume} {c : CellNo} (hv : x.vol? s = some v)
    (hc : v.loc = .cell c)
    (e : Env) (h : Hdr) (t : TaskNo) : Plant.Plans t (x.ejecting e h t s) (x.ejectTask e h t s) := by
  have hk : (x.ejecting e h t s).task? t = some (Task.ejecting e s) := (Plant.task?_newTask t t _ x).trans (if_pos rfl)
  have hw := Plant.vol?_ejecting hv e h t
  have he : x.ejectTask e h t s = (x.ejecting e h t s).planRemove e t := by
    change (x.ejecting e h t s).planEject e t = _
    rw [Plant.planEject, hk]
    simp [Plant.taskVol, Task.ejecting, hw, hc]
  exact he ▸ Plant.Plans.planRemove e _ hk (fun n => by simp [Plant.reelAt, Task.ejecting, hw, hc])

theorem exec_eject_taken {h : Hdr} {b : List Byte} {s : State} {q : Serial} {v : Volume} {c : CellNo} {t : TaskNo}
    (hs : State.manages { h with sized := true } s) (hn : s.plant.mgu.lib ≠ .loading) (hz : h.sized = true)
    (hq : serialOf b = some q) (hv : s.plant.vol? q = some v) (hb : v.bound = none) (hc : v.loc = .cell c)
    (ht : s.plant.freeRecord = some t) :
    exec (.eject h b) s = .next { s with plant := (s.plant.ejectTask s.env h t q).settle s.env } :=
  (State.mgmt_body hs _).trans (by simp [hn, hz, hq, hv, hb, hc, ht, State.moving])

theorem Task.eq_of_fixed {k m : Task} (h : m.fixed = k.fixed) :
    m.kind = k.kind ∧ m.origin = k.origin ∧ m.serial = k.serial ∧ m.source = k.source ∧ m.admitted = k.admitted := by
  simp only [Task.fixed, Task.mk.injEq] at h
  simp [h]

/-- Settles O27. -/
theorem enterAndEjectMakeTasks : Obligations.EnterAndEjectMakeTasks := by
  refine ⟨fun k s hs => ⟨exec_enterKey_beeps hs, fun n r hn he hr => ?_⟩, fun h b s hf hm => ?_, fun h b s hf hm =>
    ⟨fun hl => ?_, fun hl => ⟨fun hb => ?_, fun q hz hq => ⟨fun hv => ?_, fun v hv => ⟨fun hb => ?_, fun hb hc => ?_,
      fun hr hb c hc => ?_, fun c r hb hc hr => ?_⟩⟩⟩⟩⟩
  · obtain ⟨t, ht, hfree⟩ := Plant.freeRecord_some hr
    have plans := Plant.enterTask_plans s.env t n s.plant
    have new := fun u => Plant.task?_newTask t u (Task.entering s.env n) s.plant
    obtain ⟨m, hm, hmk⟩ := plans.task ((new t).trans (if_pos rfl))
    obtain ⟨kind, origin, serial, source, admitted⟩ := Task.eq_of_fixed hmk
    have entry := fun i => Plant.entry_congr plans.entries i
    refine ⟨t, s.plant.enterTask s.env t n, m, exec_enterKey_taken hs hn he ht, hfree, hm, kind, origin, serial, source,
      admitted, ?_, fun i hi => ?_, fun u hu => ?_, congrArg Records.volumes plans.records, plans.drives⟩
    · exact (entry n).trans (Plant.entry_setEntry_same _ _ _)
    · exact (entry i).trans (Plant.entry_setEntry_other (Ne.symm hi) _ _)
    · exact (plans.others u hu).trans ((new u).trans (if_neg hu))
  · refine (State.run_free hf _).trans ?_
    exact congrArg Host.Outcome.next (if_pos (congrArg not hm))
  · rcases hl with hl | hl
    · refine (State.run_free hf _).trans ?_
      rw [State.manage, if_neg (by simp [hm]), if_pos hl]; rfl
    · exact (State.mgmt_body (h := { h with sized := true }) ⟨hf, hm, by simp [hl], rfl⟩ _).trans
        (by simp [hl, State.say_eq_replied])
  all_goals
    have hman : State.manages { h with sized := true } s := ⟨hf, hm, by rcases hl with e | e <;> simp [e], rfl⟩
    have hload : s.plant.mgu.lib ≠ .loading := by rcases hl with e | e <;> simp [e]
  · refine (State.mgmt_body hman _).trans ?_
    rcases hb with hb | hb <;> simp [hload, hb, State.say_eq_replied]
  · exact (State.mgmt_body hman _).trans (by simp [hload, hz, hq, hv, State.say_eq_replied])
  · exact (State.mgmt_body hman _).trans
      (by simp [hload, hz, hq, hv, Option.isSome_iff_ne_none, hb, State.say_eq_replied])
  · refine (State.mgmt_body hman _).trans ?_
    cases hv' : v.loc with
    | cell c => exact absurd hv' (hc c)
    | _ => simp [hload, hz, hq, hv, hb, hv', State.say_eq_replied]
  · exact (State.mgmt_body hman _).trans
      (by simp [hload, hz, hq, hv, hb, hc, Plant.freeRecord_none hr, State.say_eq_replied])
  · obtain ⟨t, ht, hfree⟩ := Plant.freeRecord_some hr
    have plans := Plant.ejectTask_plans hv hc s.env h t
    have new := fun u => Plant.task?_newTask t u (Task.ejecting s.env q) s.plant
    obtain ⟨m, hm', hmk⟩ := plans.task ((new t).trans (if_pos rfl))
    obtain ⟨kind, origin, serial, -, -⟩ := Task.eq_of_fixed hmk
    obtain ⟨l, hl'⟩ := plans.sent
    refine ⟨t, s.plant.ejectTask s.env h t q, { v with bound := some t }, m, l,
      exec_eject_taken hman hload hz hq hv hb hc ht, hfree, hm', kind, origin, serial, ?_, rfl, hc, fun u hu => ?_, ?_⟩
    · exact (Plant.vol?_congr (congrArg Records.volumes plans.records) q).trans (Plant.vol?_ejecting hv s.env h t)
    · exact (plans.others u hu).trans ((new u).trans (if_neg hu))
    · rw [← hl']
      simp [Plant.ejecting, Plant.reply, Plant.sendC, Plant.newTask, Plant.updVol, Plant.putTask]

end Sys2Proof.Machine
end

section
/-!
SUPPORT. A reel set down: the end of a leg, and the accessor, the tables and the slots after a placement (R85, R89, R90).
-/
namespace Sys2Proof.Machine

/-! ### The end of a leg (R90) -/

section EndLeg
variable {e : Env} {a : Acc} (x : Plant)

theorem Plant.endLeg_mou : (x.endLeg e a).mou.queue = x.mou.queue ∧ (x.endLeg e a).mou.handoff = x.mou.handoff := by
  unfold Plant.endLeg Plant.goIdle Plant.withdrawClaim
  cases a <;> (repeat' split) <;> exact ⟨rfl, rfl⟩

theorem Plant.acc_endLeg_self (h : e.held = false) :
    (x.endLeg e a).acc a = { x.acc a with leg := none, ending := false, state := .idle } := by
  unfold Plant.endLeg Plant.goIdle Plant.withdrawClaim
  rw [if_neg (by simp [h])]
  cases a <;> split <;> rfl

end EndLeg

/-! ### The report of a step in flight (R85) -/

section Report
variable {a : Acc} {f : InFlight} {b p : Nat} {s : State} (hf : s.free) (hs : (s.plant.acc a).step = some f)
  (hk : f.kind = .place b p)
include hf hs hk

theorem exec_placed :
    exec (.placed a f.tag) s = .next { s with plant := (s.plant.placeDone s.env a).settle s.env } :=
  (State.run_free hf _).trans (by simp [State.report, Plant.inFlight, hs, hk, State.moving])

theorem exec_placeBlocked :
    exec (.placeBlocked a f.tag) s = .next { s with plant := (s.plant.blockedDone s.env a).settle s.env } :=
  (State.run_free hf _).trans (by simp [State.report, Plant.inFlight, hs, hk, State.moving])

end Report

/-! ### A reel set down (R89) -/

theorem Plant.leaveLoc_queue (s : Serial) (l : Location) (x : Plant) : (x.leaveLoc s l).mou.queue = x.mou.queue := by
  unfold Plant.leaveLoc
  split <;> (try split) <;> first | rfl | (rename_i b _ ; cases b <;> rfl)

theorem Plant.enterLoc_queue (s : Serial) (l : Location) (x : Plant) : (x.enterLoc s l).mou.queue = x.mou.queue := by
  unfold Plant.enterLoc
  split <;> first | rfl | (rename_i b ; cases b <;> rfl)

@[simp] theorem Plant.moveVol_queue (s : Serial) (l : Location) (x : Plant) :
    (x.moveVol s l).mou.queue = x.mou.queue := by
  unfold Plant.moveVol
  split
  · rfl
  · rw [Plant.enterLoc_queue, Plant.updVol_mou, (Plant.evict_frame _ _ _).2.2.2.1, Plant.leaveLoc_queue]

/-- An accessor with no step in flight. -/
def Plant.unstepped (a : Acc) (x : Plant) : Plant := x.updAcc a ({ · with step := none })

theorem Plant.unstepped_frame (a : Acc) (x : Plant) :
    (x.unstepped a).ltu = x.ltu ∧ (x.unstepped a).tcu = x.tcu ∧ (x.unstepped a).dru = x.dru
      ∧ (x.unstepped a).pru = x.pru ∧ (x.unstepped a).adu = x.adu ∧ (x.unstepped a).mgu = x.mgu
      ∧ (x.unstepped a).out = x.out ∧ (x.unstepped a).mou.queue = x.mou.queue
      ∧ (x.unstepped a).mou.handoff = x.mou.handoff := by
  cases a <;> exact ⟨rfl, rfl, rfl, rfl, rfl, rfl, rfl, rfl, rfl⟩

theorem Plant.vol?_unstepped (a : Acc) (q : Serial) (x : Plant) : (x.unstepped a).vol? q = x.vol? q :=
  Plant.vol?_congr (congrArg Ltu.volumes (Plant.unstepped_frame a x).1) q

theorem Plant.acc_unstepped (a : Acc) (x : Plant) : (x.unstepped a).acc a = { x.acc a with step := none } :=
  Plant.acc_updAcc_same a _ x

/-- An accessor that has set its reel down, its leg at an end. -/
def Plant.lowered (e : Env) (a : Acc) (x : Plant) : Plant :=
  (x.updAcc a ({ · with gripper := .empty, read := none, viaEntry := false })).endLeg e a

theorem Plant.lowered_frame (e : Env) (a : Acc) (x : Plant) :
    (x.lowered e a).ltu = x.ltu ∧ (x.lowered e a).tcu = x.tcu ∧ (x.lowered e a).dru = x.dru ∧
        (x.lowered e a).pru = x.pru
      ∧ (x.lowered e a).adu = x.adu ∧ (x.lowered e a).mgu = x.mgu ∧ (x.lowered e a).out = x.out
      ∧ (x.lowered e a).mou.queue = x.mou.queue ∧ (x.lowered e a).mou.handoff = x.mou.handoff := by
  obtain ⟨hq, hh⟩ := Plant.endLeg_mou (e := e) (a := a)
    (x.updAcc a ({ · with gripper := .empty, read := none, viaEntry := false }))
  refine ⟨?_, ?_, ?_, ?_, ?_, ?_, ?_, hq.trans ?_, hh.trans ?_⟩
  all_goals first | (cases a <;> rfl) | simp [Plant.lowered]

theorem Plant.acc_lowered {e : Env} (h : e.held = false) (a : Acc) (x : Plant) :
    (x.lowered e a).acc a = { x.acc a with gripper := .empty, read := none, viaEntry := false, leg := none,
                                           ending := false, state := .idle } := by
  rw [Plant.lowered, Plant.acc_endLeg_self _ h, Plant.acc_updAcc_same]

theorem Plant.inGrip_some {a : Acc} {q : Serial} {v : Volume} {x : Plant} (hg : (x.acc a).gripper = .known q)
    (hv : x.vol? q = some v) (hl : v.loc = .gripper a) : x.inGrip a = some q := by
  simp [Plant.inGrip, hg, Plant.volLoc, hv, hl]

/-- The known reel of a gripper set down at a place. -/
def Plant.landed (e : Env) (a : Acc) (q : Serial) (dst : Location) (x : Plant) : Plant :=
  ((x.unstepped a).moveVol q dst).lowered e a

theorem Plant.inGrip_unstepped (a : Acc) (x : Plant) : (x.unstepped a).inGrip a = x.inGrip a := by
  cases a <;> rfl

section Landed
variable {e : Env} {a : Acc} {q : Serial} {v : Volume} {x : Plant} (hv : x.vol? q = some v) (hl : v.loc = .gripper a)
  (dst : Location)

theorem Plant.landed_frame (e : Env) (a : Acc) (q : Serial) (dst : Location) (x : Plant) :
    (x.landed e a q dst).tcu = x.tcu ∧ (x.landed e a q dst).dru = x.dru ∧ (x.landed e a q dst).pru = x.pru
      ∧ (x.landed e a q dst).adu = x.adu ∧ (x.landed e a q dst).mgu = x.mgu ∧ (x.landed e a q dst).out = x.out
      ∧ (x.landed e a q dst).mou.queue = x.mou.queue := by
  obtain ⟨-, h1, h2, h3, h4, h5, h6, h7, -⟩ := Plant.lowered_frame e a ((x.unstepped a).moveVol q dst)
  obtain ⟨g1, g2, g3, g4, g5, g6⟩ := Plant.moveVol_frame q dst (x.unstepped a)
  obtain ⟨-, k1, k2, k3, k4, k5, k6, k7, -⟩ := Plant.unstepped_frame a x
  exact ⟨h1.trans (g1.trans k1), h2.trans (g2.trans k2), h3.trans (g3.trans k3), h4.trans (g4.trans k4),
    h5.trans (g5.trans k5), h6.trans (g6.trans k6), h7.trans ((Plant.moveVol_queue _ _ _).trans k7)⟩

theorem Plant.landed_ltu (e : Env) (a : Acc) (q : Serial) (dst : Location) (x : Plant) :
    (x.landed e a q dst).ltu = ((x.unstepped a).moveVol q dst).ltu := (Plant.lowered_frame e a _).1

theorem Plant.landed_records (e : Env) (a : Acc) (q : Serial) (dst : Location) (x : Plant) :
    (x.landed e a q dst).ltu.records = ((x.unstepped a).moveVol q dst).ltu.records :=
  congrArg Ltu.records (Plant.landed_ltu e a q dst x)

include hv in
theorem Plant.vol?_landed : (x.landed e a q dst).vol? q = some (v.at_ dst) :=
  (Plant.vol?_congr (congrArg Ltu.volumes (Plant.landed_ltu e a q dst x)) q).trans
    (Plant.vol?_moveVol_self ((Plant.vol?_unstepped a q x).trans hv) dst)

include hv in
theorem Plant.vol?_landed_other {r : Serial} (hr : r ≠ q) :
    (x.landed e a q dst).vol? r = (x.vol? r).map (·.evicted (some q) dst) := by
  rw [Plant.vol?_congr (congrArg Ltu.volumes (Plant.landed_ltu e a q dst x)) r,
    Plant.vol?_moveVol_other ((Plant.vol?_unstepped a q x).trans hv) dst hr, Plant.vol?_unstepped]

include hv in
theorem Plant.occ_landed (c : CellNo) : ((x.landed e a q (.cell c)).cell c).occ = .occupied q := by
  rw [Plant.cell_congr (congrArg Ltu.cells (Plant.landed_ltu e a q (.cell c) x)),
    Plant.occ_moveVol ((Plant.vol?_unstepped a q x).trans hv), if_pos rfl]

include hv hl in
theorem Plant.service_landed (n : Fin 8) :
    (x.landed e a q (.service n)).service n = Slot.hold (.known q) (x.service n).task := by
  rw [Plant.service_congr (congrArg Ltu.service (Plant.landed_ltu e a q (.service n) x)),
    Plant.service_moveVol ((Plant.vol?_unstepped a q x).trans hv), if_pos rfl, Plant.service_leaveLoc,
    if_neg (by simp [hl]), Plant.service_congr (congrArg Ltu.service (Plant.unstepped_frame a x).1)]

include hv hl in
theorem Plant.handoff_landed (h : Fin 4) :
    (x.landed e a q (.handoff h)).handoff h = Slot.hold (.known q) (x.handoff h).task := by
  have hh := (Plant.lowered_frame e a ((x.unstepped a).moveVol q (.handoff h))).2.2.2.2.2.2.2.2
  have hx : (x.unstepped a).handoff h = x.handoff h := congrArg (·.get h) (Plant.unstepped_frame a x).2.2.2.2.2.2.2.2
  have hm := Plant.handoff_moveVol ((Plant.vol?_unstepped a q x).trans hv) (.handoff h) h
  rw [if_pos rfl, Plant.handoff_leaveLoc, if_neg (by simp [hl]), hx] at hm
  exact (congrArg (·.get h) hh).trans hm

include hv in
/-- What an accessor is left as by a placement. -/
theorem Plant.acc_landed (h : e.held = false) :
    ((x.landed e a q dst).acc a).gripper = .empty ∧ ((x.landed e a q dst).acc a).leg = none
      ∧ ((x.landed e a q dst).acc a).step = none ∧ ((x.landed e a q dst).acc a).state = .idle
      ∧ ((x.landed e a q dst).acc a).viaEntry = false := by
  rw [Plant.landed, Plant.acc_lowered h]
  refine ⟨rfl, rfl, ?_, rfl, rfl⟩
  have hm := ((Plant.racks_moveVol_other ((Plant.vol?_unstepped a q x).trans hv) dst).2.2.2 a).1
  exact (congrArg AccCtx.step hm).trans (congrArg AccCtx.step (Plant.acc_unstepped a x))

end Landed

theorem Plant.setDown_known {a : Acc} {q : Serial} {v : Volume} {x : Plant} (hg : (x.acc a).gripper = .known q)
    (hv : x.vol? q = some v) (hl : v.loc = .gripper a) (e : Env) (dst : Location) :
    ((x.unstepped a).setDown a dst).endLeg e a = x.landed e a q dst := by
  have hu : ((x.unstepped a).acc a).gripper = .known q := by rw [Plant.unstepped, Plant.acc_updAcc_same]; exact hg
  have hi : (x.unstepped a).inGrip a = some q := (Plant.inGrip_unstepped a x).trans (Plant.inGrip_some hg hv hl)
  simp only [Plant.setDown, hu, hi]
  rfl

section PlaceDone
variable {e : Env} {a : Acc} {q : Serial} {v : Volume} {x : Plant} {l : Leg} {dst : Location} {t : TaskNo}
  (hleg : (x.acc a).leg = some l) (ho : l.owner = .task t) (hd : l.dst = some dst)
  (hg : (x.acc a).gripper = .known q) (hv : x.vol? q = some v) (hl : v.loc = .gripper a)
include hleg ho hd hg hv hl

theorem Plant.placeDone_task (hc : ∀ c, dst ≠ .cell c) :
    x.placeDone e a = (x.landed e a q dst).advance e t l (x.acc a).viaEntry dst := by
  have hdown := Plant.setDown_known hg hv hl e dst
  unfold Plant.unstepped at hdown
  simp only [Plant.placeDone, hleg, ho, hd, Plant.inGrip_some hg hv hl, hdown]
  cases dst with
  | cell c => exact absurd rfl (hc c)
  | _ => rfl

theorem Plant.placeDone_task_cell {c : CellNo} (hc : dst = .cell c) :
    x.placeDone e a = ((x.landed e a q dst).refileRequest e q).advance e t l (x.acc a).viaEntry dst := by
  have hdown := Plant.setDown_known hg hv hl e dst
  unfold Plant.unstepped at hdown
  subst hc
  simp only [Plant.placeDone, hleg, ho, hd, Plant.inGrip_some hg hv hl, hdown]

end PlaceDone

end Sys2Proof.Machine
end

section
/-!
SUPPORT. A task's reel set down on its drive or in a service slot, and the prompts opened there (R64, R65, R73, R120).
-/
namespace Sys2Proof.Machine

/-! ### A reel set down by a task's leg: onto its drive, into a service slot, into a handoff slot -/

theorem Plant.task?_congr {x y : Plant} (h : y.tcu = x.tcu) (t : TaskNo) : y.task? t = x.task? t :=
  congrArg (fun c : Tcu => c.tasks.get t) h

section Placed
variable {e : Env} {a : Acc} {q : Serial} {v : Volume} {x : Plant} {l : Leg} {t : TaskNo} {k : Task}

theorem Plant.task?_landed (e : Env) (a : Acc) (q : Serial) (dst : Location) (x : Plant) (u : TaskNo) :
    (x.landed e a q dst).task? u = x.task? u :=
  Plant.task?_congr (Plant.landed_frame e a q dst x).1 u

/-- The task's record once its reel is on its drive (R65). -/
def Task.threaded (k : Task) : Task := { k with state := .threading, wait := none, prompt := none, work := none }

/-- The drive and the task once the reel is on the task's drive (R65, R120). -/
def Plant.threaded (t : TaskNo) (d : DriveNo) (q : Serial) (x : Plant) : Plant :=
  (x.updDrive d (·.placed (some q))).updTask t Task.threaded

theorem Plant.placedOnDrive_eq {d : DriveNo} (hk : x.task? t = some k) (hs : k.serial = some q)
    (hp : k.pending = none) :
    x.placedOnDrive e t d = x.threaded t d q := by
  have hb : (x.task? t).bind (·.serial) = some q := by rw [hk]; exact hs
  have hn : ((x.threaded t d q).task? t).bind (·.pending) = none := by
    have hm : (x.threaded t d q).task? t = some k.threaded :=
      (Plant.task?_updTask_same t Task.threaded (x.updDrive d (·.placed (some q)))).trans (congrArg (Option.map _) hk)
    rw [hm]
    exact hp
  simp only [Plant.placedOnDrive, hb]
  have hf : ¬ (((x.threaded t d q).task? t).bind (·.pending)).isSome = true := by rw [hn]; simp
  exact if_neg hf

theorem Drive.placed_reserved {r : Drive} (h : r.state = .reserved) (q : Option Serial) :
    r.placed q = { r with state := .threading, volume := q } := by
  simp [Drive.placed, Drive.eff, Drive.setEff, h]

theorem Plant.threaded_frame (t : TaskNo) (d : DriveNo) (q : Serial) (x : Plant) :
    (x.threaded t d q).ltu = x.ltu ∧ (x.threaded t d q).mou = x.mou ∧ (x.threaded t d q).out = x.out
      ∧ (∀ c, (x.threaded t d q).drive c = if c = d then (x.drive d).placed (some q) else x.drive c)
      ∧ ∀ u, (x.threaded t d q).task? u = if u = t then (x.task? t).map Task.threaded else x.task? u := by
  refine ⟨rfl, rfl, rfl, fun c => ?_, fun u => ?_⟩
  · split
    · rename_i h; rw [h]; exact Plant.drive_updDrive_same d _ x
    · rename_i h; exact Plant.drive_updDrive_other (Ne.symm h) _ x
  · split
    · rename_i h; rw [h]; exact Plant.task?_updTask_same t _ (x.updDrive d (·.placed (some q)))
    · rename_i h; exact Plant.task?_updTask_other (Ne.symm h) _ (x.updDrive d (·.placed (some q)))

theorem Plant.volAt?_none {x : Plant} {l : Location} (h : x.volAt? l = none) {q : Serial} {u : Volume}
    (hu : x.vol? q = some u) : u.loc ≠ l := by
  have := List.find?_eq_none.mp h u (Plant.vol?_mem hu)
  simpa using this

/-- The reel of a task set down on its drive (R65, R120). -/
theorem Plant.placed_drive (hv : x.vol? q = some v) (hk : x.task? t = some k)
    (hs : k.serial = some q) (hp : k.pending = none) {d : DriveNo} (hd : (x.drive d).state = .reserved)
    (hn : x.volAt? (.drive d) = none) (hw : l.work = .toDrive) (via : Bool) :
    ∃ y : Plant, (x.landed e a q (.drive d)).advance e t l via (.drive d) = y
      ∧ y.acc a = (x.landed e a q (.drive d)).acc a ∧ (∀ u, u ≠ t → y.task? u = x.task? u)
      ∧ y.vol? q = some (v.at_ (.drive d)) ∧ (∀ r, r ≠ q → y.vol? r = x.vol? r)
      ∧ y.drive d = { x.drive d with state := .threading, volume := some q } ∧ (∀ c, c ≠ d → y.drive c = x.drive c)
      ∧ y.task? t = some k.threaded ∧ y.out = x.out := by
  have hkz := (Plant.task?_landed e a q (.drive d) x t).trans hk
  obtain ⟨-, hdru, -, -, -, hout, -⟩ := Plant.landed_frame e a q (.drive d) x
  obtain ⟨hltu, hmou, ho, hdr, htk⟩ := Plant.threaded_frame t d q (x.landed e a q (.drive d))
  have drive : ∀ c, (x.landed e a q (.drive d)).drive c = x.drive c := fun c => congrArg
      (fun r : Dru => r.drives.get c) hdru
  have vol := fun r => Plant.vol?_congr (congrArg Ltu.volumes hltu) r
  refine ⟨_, ?_, Plant.acc_congr hmou a, fun u hu => ?_, (vol q).trans (Plant.vol?_landed hv _), fun r hr => ?_, ?_,
    fun c hc => ?_, ?_, ho.trans hout⟩
  · simp only [Plant.advance, hkz, hw]
    exact Plant.placedOnDrive_eq hkz hs hp
  · rw [htk, if_neg hu, Plant.task?_landed]
  · rw [vol, Plant.vol?_landed_other hv _ hr]
    cases hu : x.vol? r with
    | none => rfl
    | some u => exact congrArg some (Volume.evicted_stays (.inl (Plant.volAt?_none hn hu)))
  · rw [hdr, if_pos rfl, drive, Drive.placed_reserved hd]
  · rw [hdr, if_neg hc, drive]
  · rw [htk, if_pos rfl, hkz]; rfl

end Placed

/-! ### A prompt opened for a task (R149) -/

theorem Plant.judgeView_pru (e : Env) (c : Console) (x : Plant) :
    (x.judgeView e c).pru.table = x.pru.table ∧ (x.judgeView e c).pru.later = x.pru.later
      ∧ (x.judgeView e c).pru.backlog = x.pru.backlog := by
  unfold Plant.judgeView
  dsimp only
  split
  · exact ⟨rfl, rfl, rfl⟩
  · cases c <;> exact ⟨rfl, rfl, rfl⟩

theorem Plant.judgeViews_pru (e : Env) (x : Plant) :
    (x.judgeViews e).pru.table = x.pru.table ∧ (x.judgeViews e).pru.later = x.pru.later
      ∧ (x.judgeViews e).pru.backlog = x.pru.backlog := by
  unfold Plant.judgeViews
  split
  · exact ⟨rfl, rfl, rfl⟩
  · obtain ⟨h1, h2, h3⟩ := Plant.judgeView_pru e .one x
    obtain ⟨g1, g2, g3⟩ := Plant.judgeView_pru e .two (x.judgeView e .one)
    exact ⟨g1.trans h1, g2.trans h2, g3.trans h3⟩

section Prompt
variable {e : Env} {x : Plant} {t : TaskNo} {k : Task}

/-- A request made with room in the table, and with no answer being delivered, opens its prompt. -/
theorem Plant.request_opens (h : x.pru.table.length < 32) (hl : x.pru.later = none) (kd : PromptKind) (p : Params)
    (o : PromptOwner) : ∃ r ∈ (x.request e kd p o).1.pru.table, r.number = (x.request e kd p o).2 ∧ r.kind = kd
      ∧ r.owner = o ∧ r.params = p := by
  simp only [Plant.request, hl, Plant.place, if_pos h]
  rw [Plant.openPrompt, (Plant.judgeViews_pru e _).1]
  exact ⟨_, List.mem_append_right _ (List.mem_singleton.mpr rfl), rfl, rfl, rfl, rfl⟩

theorem Plant.enterOpwait_task (hk : x.task? t = some k) (n : Nat) (kd : PromptKind) :
    ∃ m, (x.enterOpwait t n kd).task? t = some m ∧ m.prompt = some n
      ∧ (k.state ≠ .demounting → m.state = .opwait) ∧ (k.state = .demounting → m.state = .demounting) := by
  simp only [Plant.enterOpwait, hk]
  split
  · rename_i h
    refine ⟨_, (Plant.task?_updTask_same t _ x).trans (congrArg (Option.map _) hk), rfl, fun g => absurd h g,
        fun _ => h⟩
  · rename_i h
    refine ⟨_, (Plant.task?_congr (Plant.interim_frame t _ _).2.1 t).trans
      ((Plant.task?_updTask_same t _ x).trans (congrArg (Option.map _) hk)), rfl, fun _ => rfl, fun g => absurd g h⟩

/-- A task that rests on a prompt of its own, open in the table. -/
structure Plant.PromptOpen (t : TaskNo) (kd : PromptKind) (p : Params) (k : Task) (y : Plant) : Prop where
  opened : ∃ (m : Task) (r : Prompt), y.task? t = some m ∧ m.fixed = k.fixed ∧ m.prompt = some r.number
    ∧ r ∈ y.pru.table ∧ r.kind = kd ∧ r.owner = .task t ∧ r.params = p
    ∧ (k.state ≠ .demounting → m.state = .opwait) ∧ (k.state = .demounting → m.state = .demounting)

theorem Plant.taskPrompt_opens (hk : x.task? t = some k) (h : x.pru.table.length < 32) (hl : x.pru.later = none)
    (kd : PromptKind) (p : Params) : Plant.PromptOpen t kd p k (x.taskPrompt e t kd p) := by
  obtain ⟨r, hr, hn, hkd, ho, hp⟩ := Plant.request_opens (e := e) h hl kd p (.task t)
  have hkr := (Plant.task?_congr (Plant.request_frame e kd p (.task t) x).2.1 t).trans hk
  obtain ⟨m, hm, hmp, hm1, hm2⟩ := Plant.enterOpwait_task hkr (x.request e kd p (.task t)).2 kd
  obtain ⟨m', hm', hf⟩ := (Plant.Plans.taskPrompt e kd p x).task hk
  obtain rfl : m = m' := Option.some.inj (hm.symm.trans hm')
  have hpru := (Plant.enterOpwait_frame t (x.request e kd p (.task t)).2 kd (x.request e kd p (.task t)).1).2.2.2.1
  exact ⟨m, r, hm, hf, hn ▸ hmp, (congrArg Pru.table hpru).symm ▸ hr, hkd, ho, hp, hm1, hm2⟩

end Prompt

/-! ### The answers given when a reel stands ready for removal (R73) -/

section Answers
variable {x : Plant} {t : TaskNo} {k : Task}

theorem Plant.answer_task (hk : x.task? t = some k) (st : Status) :
    (∃ b, (x.answer t st).task? t = some { k with answered := b }) ∧ ∀ u, u ≠ t →
        (x.answer t st).task? u = x.task? u := by
  simp only [Plant.answer, hk]
  split
  · split
    · exact ⟨⟨_, hk⟩, fun _ _ => rfl⟩
    · exact ⟨⟨true, (Plant.task?_updTask_same t _ x).trans (congrArg (Option.map _) hk)⟩,
        fun u hu => Plant.task?_updTask_other (Ne.symm hu) _ x⟩
  · exact ⟨⟨_, hk⟩, fun _ _ => rfl⟩

theorem Plant.answerOrder_task (hk : x.task? t = some k) (f : Option Final) :
    (∃ b, (x.answerOrder t f).task? t = some { k with answered := b })
      ∧ ∀ u, u ≠ t → (x.answerOrder t f).task? u = x.task? u := by
  simp only [Plant.answerOrder, hk]
  split
  · exact Plant.answer_task hk _
  · exact ⟨⟨_, hk⟩, fun _ _ => rfl⟩

theorem Plant.answerRequester_task (hk : x.task? t = some k) (f : Option Final) :
    (x.answerRequester t f).task? t = some { k with requester := none }
      ∧ ∀ u, u ≠ t → (x.answerRequester t f).task? u = x.task? u := by
  simp only [Plant.answerRequester, hk]
  split
  · exact ⟨(Plant.task?_updTask_same t _ x).trans (congrArg (Option.map _) hk),
      fun u hu => Plant.task?_updTask_other (Ne.symm hu) _ x⟩
  · rename_i hr
    refine ⟨hk.trans (congrArg some ?_), fun _ _ => rfl⟩
    obtain ⟨⟩ := k
    simp only at hr
    rw [hr]

end Answers

section Placed
variable {e : Env} {a : Acc} {q : Serial} {v : Volume} {x : Plant} {l : Leg} {t : TaskNo} {k : Task} {n : Fin 8}

/-- The tables, the rack, the accessor and the drives when a placement into a service slot has only asked for a prompt. -/
theorem Plant.slotPrompt_keeps {z : Plant} (hltu : z.ltu = (x.landed e a q (.service n)).ltu)
    (hmou : z.mou = (x.landed e a q (.service n)).mou) (hdru : z.dru = x.dru) (hv : x.vol? q = some v)
    (hl : v.loc = .gripper a) (ht : (x.service n).task = some t) (kd : PromptKind) (b : Bool) :
    (z.slotPrompt e t kd n b).vol? q = some (v.at_ (.service n))
      ∧ (z.slotPrompt e t kd n b).service n = { state := .occupied, content := some (.known q), task := some t }
      ∧ (z.slotPrompt e t kd n b).acc a = (x.landed e a q (.service n)).acc a
      ∧ (z.slotPrompt e t kd n b).dru = x.dru := by
  obtain ⟨h1, h2, h3, -⟩ := Plant.slotPrompt_frame e t kd n b z
  have hltu := h1.trans hltu
  refine ⟨(Plant.vol?_congr (congrArg Ltu.volumes hltu) q).trans (Plant.vol?_landed hv _), ?_,
    Plant.acc_congr (h2.trans hmou) a, h3.trans hdru⟩
  rw [Plant.service_congr (congrArg Ltu.service hltu), Plant.service_landed hv hl, ht]
  rfl

/-- A reel set down in a service slot for its removal (R73). -/
theorem Plant.placed_remove (hv : x.vol? q = some v) (hl : v.loc = .gripper a) (hk : x.task? t = some k)
    (hs : k.serial = some q) (ht : (x.service n).task = some t) (hroom : x.pru.table.length < 32)
        (hlat : x.pru.later = none)
    (hw : l.work = .remove) (via : Bool) :
    ∃ y : Plant, (x.landed e a q (.service n)).advance e t l via (.service n) = y
      ∧ y.vol? q = some (v.at_ (.service n))
      ∧ y.service n = { state := .occupied, content := some (.known q), task := some t }
      ∧ y.acc a = (x.landed e a q (.service n)).acc a ∧ y.dru = x.dru ∧ (∀ u, u ≠ t → y.task? u = x.task? u)
      ∧ ∃ b, Plant.PromptOpen t .remove { vol := some q, slot := some (.service n) } { k with answered := b, requester := none } y := by
  obtain ⟨-, hdru, hpru, -⟩ := Plant.landed_frame e a q (.service n) x
  have hkz := (Plant.task?_landed e a q (.service n) x t).trans hk
  obtain ⟨⟨b, h1⟩, o1⟩ := Plant.answerOrder_task hkz none
  obtain ⟨h2, o2⟩ := Plant.answerRequester_task h1 none
  obtain ⟨f1, f2, f3, f4, -⟩ := Plant.answerOrder_frame t none (x.landed e a q (.service n))
  obtain ⟨g1, g2, g3, g4, -⟩ := Plant.answerRequester_frame t none ((x.landed e a q (.service n)).answerOrder t none)
  obtain ⟨k1, k2, k3, k4⟩ := Plant.slotPrompt_keeps (g1.trans f1) (g2.trans f2) (g3.trans
      (f3.trans hdru)) hv hl ht .remove false
  have hpz := g4.trans (f4.trans hpru)
  refine ⟨(x.landed e a q (.service n)).placedForRemoval e t n, by simp only [Plant.advance, hkz, hw], k1, k2, k3, k4,
    fun u hu => ?_, b, ?_⟩
  · rw [Plant.placedForRemoval, (Plant.Plans.slotPrompt e _ _ _ _).others u hu, o2 u hu, o1 u hu, Plant.task?_landed]
  · have hopen := Plant.taskPrompt_opens (e := e) h2 (by rw [hpz]; exact hroom) (by rw [hpz]; exact hlat) .remove
      { vol := some q, slot := some (.service n) }
    rw [Plant.placedForRemoval, Plant.slotPrompt, h2]
    simpa [hs] using hopen

/-- A reel set down in a service slot for its ring (R64). -/
theorem Plant.placed_ring (hv : x.vol? q = some v) (hl : v.loc = .gripper a) (hk : x.task? t = some k)
    (hs : k.serial = some q) (ht : (x.service n).task = some t) (hroom : x.pru.table.length < 32)
        (hlat : x.pru.later = none)
    (hw : l.work = .ringStop) (hp : k.pending = none) (via : Bool) :
    ∃ y : Plant, (x.landed e a q (.service n)).advance e t l via (.service n) = y
      ∧ y.vol? q = some (v.at_ (.service n))
      ∧ y.service n = { state := .occupied, content := some (.known q), task := some t }
      ∧ y.acc a = (x.landed e a q (.service n)).acc a ∧ y.dru = x.dru ∧ (∀ u, u ≠ t → y.task? u = x.task? u)
      ∧ Plant.PromptOpen t .ring { vol := some q, slot := some (.service n), drive := k.drive }
          { k with tags := addTag .ringPrompted k.tags } y := by
  obtain ⟨-, hdru, hpru, -⟩ := Plant.landed_frame e a q (.service n) x
  have hkz := (Plant.task?_landed e a q (.service n) x t).trans hk
  obtain ⟨f1, f2, f3, f4, -⟩ := Plant.tag_frame t .ringPrompted (x.landed e a q (.service n))
  have h2 : ((x.landed e a q (.service n)).tag t .ringPrompted).task? t = some { k with tags := addTag .ringPrompted k.tags } :=
    (Plant.task?_updTask_same t _ _).trans (congrArg (Option.map _) hkz)
  obtain ⟨k1, k2, k3, k4⟩ := Plant.slotPrompt_keeps f1 f2 (f3.trans hdru) hv hl ht .ring true
  have hpz := f4.trans hpru
  refine ⟨(x.landed e a q (.service n)).ringPrompt e t n, by simp [Plant.advance, hkz, hw, hp], k1, k2, k3, k4,
      fun u hu => ?_, ?_⟩
  · refine ((Plant.Plans.slotPrompt e _ _ _ _).others u hu).trans
      ((Plant.task?_updTask_other (Ne.symm hu) _ _).trans ?_)
    exact Plant.task?_landed e a q _ x u
  · have hopen := Plant.taskPrompt_opens (e := e) h2 (by rw [hpz]; exact hroom) (by rw [hpz]; exact hlat) .ring
      { vol := some q, slot := some (.service n), drive := k.drive }
    change Plant.PromptOpen t .ring _ _
        (((x.landed e a q (.service n)).tag t .ringPrompted).slotPrompt e t .ring n true)
    rw [Plant.slotPrompt, h2]
    simpa [hs] using hopen

end Placed

end Sys2Proof.Machine
end

section
/-!
SUPPORT. The leg of a planned movement (R56, R57).
-/
namespace Sys2Proof.Machine

/-! ### The leg of a planned movement (R56, R57) -/

theorem mem_insertLeg (now : Tick) (l : Leg) (ms : List Leg) : l ∈ insertLeg now l ms := by
  induction ms with
  | nil => exact List.mem_singleton.mpr rfl
  | cons m ms ih =>
    unfold insertLeg
    split
    · exact List.mem_cons_self
    · exact List.mem_cons_of_mem _ ih

/-- The gripper a movement sets out from. -/
def Location.grip : Location → Option Acc
  | .gripper a => some a
  | _ => none

/-- A leg of the task from `src` to `dst` is in the queue, no step of it done. -/
def Plant.LegQueued (t : TaskNo) (src dst : Location) (onward : Option Location) (y : Plant) : Prop :=
  ∃ g ∈ y.mou.queue, g.owner = .task t ∧ g.src = src ∧ g.dst = some dst ∧ g.onward = onward
    ∧ g.picked = src.grip.isSome ∧ g.steps = 0

section Leg
variable {e : Env} {t : TaskNo} {k : Task} {x : Plant} {w : Work} {src dst : Location}

theorem Plant.queueTaskLeg_queued (hk : x.task? t = some k) (onward : Option Location) (capA capB : Bool) :
    Plant.LegQueued t src dst onward (x.queueTaskLeg e t w src (some dst) onward capA capB) := by
  simp only [Plant.queueTaskLeg, hk]
  unfold Plant.LegQueued
  rw [(Plant.legQueued_frame t _ _).2.1]
  refine ⟨_, mem_insertLeg _ _ _, rfl, rfl, rfl, rfl, ?_, rfl⟩
  cases src <;> rfl

/-- A movement that one accessor can make is one leg. -/
theorem Plant.route_queued (hk : x.task? t = some k) (hc : capable .A src dst = true ∨ capable .B src dst = true) :
    Plant.LegQueued t src dst none (x.route e t w src dst) := by
  obtain ⟨m, hm, -⟩ := (Plant.Plans.releaseHandoff x).task hk
  unfold Plant.route
  rw [if_pos (by simpa using hc)]
  exact Plant.queueTaskLeg_queued hm _ _ _

/-- The task's record when a movement sets out. -/
def Task.setOut (w : Work) (src : Location) (k : Task) : Task :=
  { k with work := some w, waiter := none, faulted := none, holding := src.grip }

/-- The task set to a movement. -/
def Plant.setOut (t : TaskNo) (w : Work) (src : Location) (x : Plant) : Plant :=
  (x.updTask t ({ · with work := some w, waiter := none, faulted := none })).updTask t ({ · with holding := src.grip })

theorem Plant.setOut_task (hk : x.task? t = some k) : (x.setOut t w src).task? t = some (k.setOut w src) := by
  rw [Plant.setOut, Plant.task?_updTask_same, Plant.task?_updTask_same, hk]
  rfl

theorem Plant.setOut_frame (t : TaskNo) (w : Work) (src : Location) (x : Plant) :
    (x.setOut t w src).ltu = x.ltu ∧ (x.setOut t w src).mou = x.mou ∧ (x.setOut t w src).dru = x.dru
      ∧ (x.setOut t w src).tcu.requests = x.tcu.requests := ⟨rfl, rfl, rfl, rfl⟩

/-- A movement of a volume that stands in a cell, a slot or a gripper, and not in the entry rack. -/
theorem Plant.planMove_from {q : Serial} {v : Volume} (hk : x.task? t = some k) (hs : k.serial = some q)
    (hv : x.vol? q = some v) (hl : ∀ d, v.loc ≠ .drive d) (h1 : v.loc ≠ .outside) (h2 : v.loc ≠ .unknown) :
    x.planMove e t w = (x.updTask t ({ · with work := some w, waiter := none, faulted := none })).moveFrom e t w
      { k with work := some w, waiter := none, faulted := none } v.loc := by
  rw [Plant.planMove_eq]
  simp only [Plant.task?_updTask_same, hk, Option.map_some]
  have hr : ∀ m : Task, m.serial = some q →
      (x.updTask t ({ · with work := some w, waiter := none, faulted := none })).reelAt m = some v.loc := fun m hm => by
    simp only [Plant.reelAt, hm]
    exact congrArg (Option.map _) hv
  have ho : ¬ (x.updTask t ({ · with work := some w, waiter := none, faulted := none })).onOtherDrive t
      { k with work := some w, waiter := none, faulted := none } = true := by
    rw [Plant.onOtherDrive, hr { k with work := some w, waiter := none, faulted := none } hs]
    cases hloc : v.loc with
    | drive d => exact absurd hloc (hl d)
    | _ => simp
  rw [if_neg ho, hr { k with work := some w, waiter := none, faulted := none } hs]
  cases hloc : v.loc with
  | outside => exact absurd hloc h1
  | unknown => exact absurd hloc h2
  | _ => rfl

theorem Plant.moveFrom_store {c : CellNo} (hc : k.cell = some c) (he : ∀ n, src ≠ .entry n) :
    (x.updTask t ({ · with work := some Work.store, waiter := none, faulted := none })).moveFrom e t .store k src
      = (x.setOut t .store src).route e t .store src (.cell c) := by
  unfold Plant.moveFrom
  simp only [hc]
  cases src with
  | entry n => exact absurd rfl (he n)
  | _ => simp [Plant.setOut, Location.grip]

theorem Plant.moveFrom_toDrive {d : DriveNo} (hd : k.drive = some d) (hr : (x.drive d).state = .reserved)
    (he : ∀ n, src ≠ .entry n) :
    (x.updTask t ({ · with work := some Work.toDrive, waiter := none, faulted := none })).moveFrom e t .toDrive k src
      = (x.setOut t .toDrive src).route e t .toDrive src (.drive d) := by
  have hr' : ∀ f g, ¬ (((x.updTask t f).updTask t g).drive d).state ≠ .reserved := fun f g h => h hr
  unfold Plant.moveFrom
  simp only [hd, hr', and_false, if_false]
  cases src with
  | entry n => exact absurd rfl (he n)
  | _ => simp [Plant.setOut, Location.grip]

end Leg

end Sys2Proof.Machine
end

section
/-!
SUPPORT. What the accessors reach, and a task's reel set down in a handoff slot (R1, R2, R57).
-/
namespace Sys2Proof.Machine

/-! ### What the accessors reach (R1, R2) -/

theorem within_handoff (a : Acc) (h : Fin 4) : (Location.handoff h).within a = true := by cases a <;> rfl

theorem within_service (a : Acc) (n : Fin 8) : (Location.service n).within a = true := by cases a <;> rfl

theorem within_gripper (a b : Acc) : (Location.gripper b).within a = decide (b = a) := rfl

theorem within_drive : ∀ d : DriveNo, (Location.drive d).within .A = true ∨
    (Location.drive d).within .B = true := by decide

theorem within_cell {c : CellNo} (h : c / 16 ≤ 127) : (Location.cell c).within .A = true ∨
    (Location.cell c).within .B = true := by
  rcases Nat.lt_or_ge (c / 16) 80 with hA | hB
  · exact .inl (decide_eq_true (Nat.lt_succ_iff.mp hA))
  · exact .inr (decide_eq_true ⟨Nat.le_trans (by decide) hB, h⟩)

theorem capable_handoff {h : Fin 4} {dst : Location} (hd : dst.within .A = true ∨ dst.within .B = true) :
    capable .A (.handoff h) dst = true ∨ capable .B (.handoff h) dst = true := by
  simpa [capable, within_handoff] using hd

theorem capable_gripper {a : Acc} {dst : Location} (hd : dst.within a = true) :
    capable .A (.gripper a) dst = true ∨ capable .B (.gripper a) dst = true := by
  cases a <;> simp [capable, within_gripper, hd]

/-! ### The handoff slots under a movement (R58) -/

section Handoff
variable {e : Env} {t : TaskNo} {k : Task} {x : Plant} {w : Work} {src dst : Location}

theorem Plant.queueTaskLeg_handoff (dst onward : Option Location) (capA capB : Bool) :
    (x.queueTaskLeg e t w src dst onward capA capB).mou.handoff = x.mou.handoff := by
  unfold Plant.queueTaskLeg
  split
  · rfl
  · dsimp only
    rw [(Plant.legQueued_frame t _ _).2.1]
    rfl

/-- Only a slot that is reserved is given up. -/
theorem Plant.releaseHandoff_other {h : Fin 4} (hh : (x.handoff h).state ≠ .reserved) :
    (x.releaseHandoff t).handoff h = x.handoff h := by
  unfold Plant.releaseHandoff
  split
  · rename_i g _
    split
    · rename_i hg
      have hgh : g ≠ h := by rintro rfl; exact hh hg.1
      exact Plant.handoff_setHandoff_other hgh _ _
    · rfl
  · rfl

theorem Plant.route_handoff_other (hc : capable .A src dst = true ∨ capable .B src dst = true) {h : Fin 4}
    (hh : (x.handoff h).state ≠ .reserved) : (x.route e t w src dst).handoff h = x.handoff h := by
  unfold Plant.route
  rw [if_pos (by simpa using hc)]
  exact (congrArg (·.get h) (Plant.queueTaskLeg_handoff _ _ _ _)).trans (Plant.releaseHandoff_other hh)

end Handoff

section Placed
variable {e : Env} {a : Acc} {q : Serial} {v : Volume} {x : Plant} {l : Leg} {t : TaskNo} {k : Task} {h : Fin 4}

/-- A reel set down in a handoff slot, from which the second leg sets out (R57). -/
theorem Plant.placed_handoff (hv : x.vol? q = some v) (hl : v.loc = .gripper a) (hk : x.task? t = some k)
    (hs : k.serial = some q) (hp : k.pending = none) (ht : (x.handoff h).task = some t) {dst : Location}
    (hw : (l.work = .toDrive ∧ ∃ d, k.drive = some d ∧ dst = .drive d ∧ (x.drive d).state = .reserved)
      ∨ (l.work = .store ∧ ∃ c, k.cell = some c ∧ dst = .cell c ∧ c / 16 ≤ 127)) (via : Bool) :
    ∃ y : Plant, (x.landed e a q (.handoff h)).advance e t l via (.handoff h) = y
      ∧ Plant.Plans t (x.landed e a q (.handoff h)) y ∧ Plant.LegQueued t (.handoff h) dst none y
      ∧ y.handoff h = { state := .occupied, content := some (.known q), task := some t } := by
  have hkz := (Plant.task?_landed e a q (.handoff h) x t).trans hk
  have hvz := Plant.vol?_landed (e := e) (a := a) hv (.handoff h)
  have hret : k.returns = false := by simp [Task.returns, hp]
  have hadv : (x.landed e a q (.handoff h)).advance e t l via (.handoff h)
      = (x.landed e a q (.handoff h)).planMove e t l.work := by
    simp only [Plant.advance, hkz, hret]
    cases l.work <;> simp
  have hcap : capable .A (.handoff h) dst = true ∨ capable .B (.handoff h) dst = true := by
    refine capable_handoff ?_
    obtain ⟨-, d, -, rfl, -⟩ | ⟨-, c, -, rfl, hc⟩ := hw
    · exact within_drive d
    · exact within_cell hc
  have hdrive : ∀ d, (x.landed e a q (.handoff h)).drive d = x.drive d := fun d =>
    congrArg (fun r : Dru => r.drives.get d) (Plant.landed_frame e a q (.handoff h) x).2.1
  have hroute : (x.landed e a q (.handoff h)).planMove e t l.work
      = ((x.landed e a q (.handoff h)).setOut t l.work (.handoff h)).route e t l.work (.handoff h) dst := by
    have hfrom := Plant.planMove_from (e := e) (w := l.work) hkz hs hvz (by simp [Volume.at_]) (by simp [Volume.at_])
      (by simp [Volume.at_])
    obtain ⟨hw, d, hd, rfl, hr⟩ | ⟨hw, c, hc, rfl, -⟩ := hw
    · rw [hw] at hfrom ⊢
      exact hfrom.trans (Plant.moveFrom_toDrive hd (by rw [hdrive]; exact hr) (by simp [Volume.at_]))
    · rw [hw] at hfrom ⊢
      exact hfrom.trans (Plant.moveFrom_store hc (by simp [Volume.at_]))
  have hslot : (x.landed e a q
      (.handoff h)).handoff h = { state := .occupied, content := some (.known q), task := some t } := by
    rw [Plant.handoff_landed hv hl, ht]
    rfl
  refine ⟨_, hadv, Plant.Plans.planMove e _ _, ?_, ?_⟩
  · rw [hroute]
    exact Plant.route_queued (Plant.setOut_task hkz) hcap
  · rw [hroute, Plant.route_handoff_other (x := (x.landed e a q (.handoff h)).setOut t l.work (.handoff h)) hcap
      (show ((x.landed e a q (.handoff h)).handoff h).state ≠ .reserved by rw [hslot]; simp)]
    exact hslot

end Placed

end Sys2Proof.Machine
end

section
/-!
SUPPORT. The ending of a task whose volume is in a cell (R38, R53).
-/
namespace Sys2Proof.Machine

/-! ### The ending of a task whose volume is in a cell (R53) -/

/-- The entries of a serial in the volume table. -/
def Plant.entriesOf (q : Serial) (x : Plant) : List Volume := x.ltu.volumes.filter (·.serial = q)

theorem Plant.vol?_eq_head (q : Serial) (x : Plant) : x.vol? q = (x.entriesOf q).head? :=
  List.head?_filter.symm

theorem Plant.entriesOf_congr {x y : Plant} (h : y.ltu.volumes = x.ltu.volumes) (q : Serial) :
    y.entriesOf q = x.entriesOf q := by
  unfold Plant.entriesOf; rw [h]

/-- Records changed one by one, each keeping its serial. -/
theorem Plant.entriesOf_map {x y : Plant} {f : Volume → Volume} (h : y.ltu.volumes = x.ltu.volumes.map f)
    (hf : ∀ v, (f v).serial = v.serial) (q : Serial) : y.entriesOf q = (x.entriesOf q).map f := by
  unfold Plant.entriesOf
  rw [h, List.filter_map]
  simp [Function.comp_def, hf]

theorem Plant.entriesOf_fixed {x y : Plant} {f : Volume → Volume} (h : y.ltu.volumes = x.ltu.volumes.map f)
    (hf : ∀ v, (f v).serial = v.serial) {q : Serial}
        (hq : ∀ v ∈ x.entriesOf q, f v = v) : y.entriesOf q = x.entriesOf q :=
  (Plant.entriesOf_map h hf q).trans ((List.map_congr_left (g := id) hq).trans (List.map_id _))

/-- A volume rests in a cell, in every entry of its serial, and an accessor stands empty and without a leg. -/
structure Plant.Rests (a : Acc) (q : Serial) (c : CellNo) (x : Plant) : Prop where
  entries : ∀ v ∈ x.entriesOf q, v.loc = .cell c
  occ : (x.cell c).occ = .occupied q
  leg : (x.acc a).leg = none
  grip : (x.acc a).gripper = .empty

/-- What an ending has to see of its task's record. -/
def Task.debts (k : Task) : Origin × Bool × Option
    (Path × Byte) × Option Final × BitVec 10 × Option DriveNo × Option Nat :=
  (k.origin, k.answered, k.requester, k.pending, k.tags, k.drive, k.prompt)

/-- A step of a task's ending: of the tasks it writes the task's own alone, and what goes out on the C-link follows what
was made; a volume at rest in a cell stays there as it is, and so does an accessor without a leg. -/
structure Plant.Spares (t : TaskNo) (a : Acc) (q : Serial) (c : CellNo) (x y : Plant) : Prop where
  others : ∀ u, u ≠ t → y.task? u = x.task? u
  own : (y.task? t).map Task.debts = (x.task? t).map Task.debts
  sent : x.out.c <+: y.out.c
  entries : x.Rests a q c → y.entriesOf q = x.entriesOf q
  occ : x.Rests a q c → (y.cell c).occ = (x.cell c).occ
  acc : x.Rests a q c → y.acc a = x.acc a

namespace Plant.Spares
variable {t : TaskNo} {a : Acc} {q : Serial} {c : CellNo} {x y z : Plant}

theorem rests (h : Plant.Spares t a q c x y) (hx : x.Rests a q c) : y.Rests a q c := by
  obtain ⟨he, ho, hl, hg⟩ := hx
  exact ⟨fun v hv => he v (h.entries ⟨he, ho, hl, hg⟩ ▸ hv), (h.occ ⟨he, ho, hl, hg⟩).trans ho,
    (congrArg AccCtx.leg (h.acc ⟨he, ho, hl, hg⟩)).trans hl, (congrArg AccCtx.gripper
        (h.acc ⟨he, ho, hl, hg⟩)).trans hg⟩

theorem refl (x : Plant) : Plant.Spares t a q c x x :=
  ⟨fun _ _ => rfl, rfl, List.prefix_rfl, fun _ => rfl, fun _ => rfl, fun _ => rfl⟩

theorem trans (h : Plant.Spares t a q c x y) (g : Plant.Spares t a q c y z) : Plant.Spares t a q c x z where
  others u hu := (g.others u hu).trans (h.others u hu)
  own := g.own.trans h.own
  sent := h.sent.trans g.sent
  entries hx := (g.entries (h.rests hx)).trans (h.entries hx)
  occ hx := (g.occ (h.rests hx)).trans (h.occ hx)
  acc hx := (g.acc (h.rests hx)).trans (h.acc hx)

theorem after (g : Plant.Spares t a q c y z) (h : Plant.Spares t a q c x y) : Plant.Spares t a q c x z := h.trans g

/-- A change of the task's own record, of what the ending does not look at. -/
theorem updTask (x : Plant) {f : Task → Task} (hf : ∀ k, (f k).debts = k.debts) : Plant.Spares t a q c x
    (x.updTask t f) where
  others u hu := Plant.task?_updTask_other hu.symm f x
  own := by rw [Plant.task?_updTask_same, Option.map_map]; exact congrArg (Option.map · _) (funext hf)
  sent := List.prefix_rfl
  entries _ := rfl
  occ _ := rfl
  acc _ := by cases a <;> rfl

/-- A change of no task, no volume, no cell and no frame. -/
theorem of_frame (ht : y.tcu.tasks = x.tcu.tasks) (ho : y.out = x.out) (hv : y.ltu.volumes = x.ltu.volumes)
    (hc : y.ltu.cells = x.ltu.cells) (ha : x.Rests a q c → y.acc a = x.acc a) : Plant.Spares t a q c x y where
  others u _ := by unfold Plant.task?; rw [ht]
  own := by unfold Plant.task?; rw [ht]
  sent := by rw [ho]
  entries _ := Plant.entriesOf_congr hv q
  occ _ := congrArg CellRec.occ (Plant.cell_congr hc c)
  acc := ha

theorem setService (n : Fin 8) (s : Slot) (x : Plant) : Plant.Spares t a q c x (x.setService n s) :=
  of_frame rfl rfl rfl rfl fun _ => by cases a <;> rfl

theorem setHandoff (h : Fin 4) (s : Slot) (x : Plant) : Plant.Spares t a q c x (x.setHandoff h s) :=
  of_frame rfl rfl rfl rfl fun _ => by cases a <;> rfl

theorem setEntry (n : Fin 8) (s : Slot) (x : Plant) : Plant.Spares t a q c x (x.setEntry n s) :=
  of_frame rfl rfl rfl rfl fun _ => by cases a <;> rfl

theorem requestRecovery (r : Request) (x : Plant) : Plant.Spares t a q c x (x.requestRecovery r) := by
  unfold Plant.requestRecovery
  split
  · exact refl x
  · exact of_frame rfl rfl rfl rfl fun _ => by cases a <;> rfl

theorem dropLegs (e : Env) (u : TaskNo) (x : Plant) : Plant.Spares t a q c x (x.dropLegs e u) := by
  obtain ⟨hl, ht, -, -, -, -, ho⟩ := Plant.dropLegs_frame e u x
  exact of_frame (by rw [ht]) ho (by rw [hl]) (by rw [hl]) fun hx => (Plant.Plans.dropLegs
      (t := t) e u x).legless a hx.leg

theorem releaseCell (x : Plant) : Plant.Spares t a q c x (x.releaseCell t) := by
  unfold Plant.releaseCell
  split
  · rename_i d _
    extract_lets y
    have hy : Plant.Spares t a q c x y := updTask x fun _ => rfl
    split
    · rename_i r u hr
      split
      · refine hy.trans ?_
        have hd : x.Rests a q c → c ≠ d := fun hx h => by rw [← h, hx.occ] at hr; cases hr
        refine ⟨fun _ _ => rfl, rfl, List.prefix_rfl, fun hx => ?_, fun hx => ?_, fun _ => by cases a <;> rfl⟩
        all_goals have hcd : c ≠ d := hd ⟨hx.entries, hx.occ, hx.leg, hx.grip⟩
        · refine Plant.entriesOf_fixed (f := (·.evicted none (.cell d)))
            (by simp [Plant.setOcc, Plant.evict_volumes]) (by simp) fun v hv => ?_
          exact Volume.evicted_stays (.inl fun h => hcd (Location.cell.inj ((hx.entries v hv).symm.trans h)))
        · rw [Plant.cell_setOcc, if_neg hcd]
      · exact hy
    · exact hy
  · exact refl x

theorem releaseHandoff (x : Plant) : Plant.Spares t a q c x (x.releaseHandoff t) := by
  unfold Plant.releaseHandoff
  split
  · split
    · exact after (setHandoff _ _ _) (updTask x fun _ => rfl)
    · exact refl x
  · exact refl x

theorem releaseService (x : Plant) : Plant.Spares t a q c x (x.releaseService t) := by
  unfold Plant.releaseService
  split
  · split
    · exact after (setService _ _ _) (updTask x fun _ => rfl)
    · exact refl x
  · exact refl x

/-- A volume found elsewhere than in the cell leaves the library. -/
theorem moveOut {n : Fin 8} {v : Volume} (hv : x.volAt? (.entry n) = some v) :
    Plant.Spares t a q c x (x.moveVol v.serial .outside) := by
  have hmem := List.mem_of_find?_eq_some hv
  have hloc : v.loc = .entry n := by simpa using List.find?_some hv
  have hq : x.Rests a q c → v.serial ≠ q := fun hx h => by
    have := hx.entries v (List.mem_filter.mpr ⟨hmem, by simpa using h⟩)
    rw [hloc] at this
    cases this
  obtain ⟨ht, -, -, -, -, ho⟩ := Plant.moveVol_frame v.serial .outside x
  cases hw : x.vol? v.serial with
  | none => rw [Plant.moveVol_none hw]; exact refl x
  | some w =>
    refine ⟨fun u _ => Plant.task?_congr ht u, by rw [Plant.task?_congr ht], by rw [ho], fun hx => ?_, fun hx => ?_,
        fun hx => ?_⟩
    · refine Plant.entriesOf_fixed (Plant.moveVol_volumes hw .outside) (by simp) fun u hu => ?_
      have hs : u.serial = q := by simpa [Plant.entriesOf] using (List.mem_filter.mp hu).2
      rw [Volume.moved, if_neg (hs ▸ (hq hx).symm)]
      exact Volume.evicted_stays (.inr (.inl rfl))
    · rw [Plant.occ_moveVol hw, if_neg (by simp), if_neg]
      rintro ⟨-, ho⟩
      exact hq hx (Occ.occupied.inj (ho.symm.trans hx.occ))
    · rw [Plant.acc_moveVol hw, if_neg (by simp), Plant.acc_leaveLoc, if_neg (by simp [hx.grip])]

theorem releaseEntries (x : Plant) : Plant.Spares t a q c x (x.releaseEntries t) := by
  unfold Plant.releaseEntries
  refine List.foldlRecOn (motive := Plant.Spares t a q c x) _ _ (refl x) fun y hy n _ => hy.trans ?_
  split
  · split
    · rename_i v hv
      exact (moveOut hv).trans (setEntry n _ _)
    · exact setEntry n _ y
  · exact refl y

theorem orphanSlots (x : Plant) : Plant.Spares t a q c x (x.orphanSlots t) := by
  unfold Plant.orphanSlots
  extract_lets y
  have hy : Plant.Spares t a q c x y := by
    refine List.foldlRecOn (motive := Plant.Spares t a q c x) _ _ (refl x) fun y hy n _ => hy.trans ?_
    split
    · extract_lets _ z
      have hz : Plant.Spares t a q c y z := setService n _ y
      split
      · exact hz
      · exact hz.trans (requestRecovery _ z)
    · exact refl y
  refine List.foldlRecOn (motive := Plant.Spares t a q c x) _ _ hy fun z hz h _ => hz.trans ?_
  split
  · exact (setHandoff h _ z).trans (requestRecovery _ _)
  · exact refl z

theorem outliveCarries (x : Plant) : Plant.Spares t a q c x (x.outliveCarries t) := by
  refine of_frame rfl rfl rfl rfl fun hx => ?_
  have none_map : ∀ r : AccCtx, r.leg = none → { r with leg := r.leg.map (·.outlive t) } = r := fun r hr => by
    obtain ⟨⟩ := r; cases hr; rfl
  cases a
  · exact none_map _ hx.leg
  · exact none_map _ hx.leg

end Plant.Spares

/-! ### The answers of an ending (R38, R53) -/

section Answers
variable {x : Plant} {t : TaskNo} {k : Task} {p : Path} {g : Byte}

theorem Plant.answer_sent (hk : x.task? t = some k) (ho : k.origin = .path p g) (ha : k.answered = false)
    (st : Status) :
    CFrame.status p (some g) .last st ∈ (x.answer t st).out.c := by
  simp only [Plant.answer, hk, ho, ha]
  exact List.mem_append_right _ (List.mem_singleton.mpr rfl)

theorem Plant.answer_prefix (t : TaskNo) (st : Status) (x : Plant) : x.out.c <+: (x.answer t st).out.c := by
  unfold Plant.answer
  split
  · split
    · split
      · exact List.prefix_rfl
      · exact List.prefix_append _ _
    · exact List.prefix_rfl
  · exact List.prefix_rfl

theorem Plant.answerOrder_sent (hk : x.task? t = some k) (ho : k.origin = .path p g) (ha : k.answered = false)
    {f : Option Final} {r : Final} (hr : k.pending.or f = some r) :
    CFrame.status p (some g) .last (.ended r k.tags) ∈ (x.answerOrder t f).out.c := by
  simp only [Plant.answerOrder, hk, hr]
  exact Plant.answer_sent hk ho ha _

theorem Plant.answerOrder_prefix (t : TaskNo) (f : Option Final) (x : Plant) : x.out.c <+:
    (x.answerOrder t f).out.c := by
  unfold Plant.answerOrder
  split
  · split
    · exact Plant.answer_prefix t _ x
    · exact List.prefix_rfl
  · exact List.prefix_rfl

theorem Plant.answerRequester_sent (hk : x.task? t = some k) (hr : k.requester = some (p, g)) (f : Option Final) :
    CFrame.status p (some g) .last (dismountStatus f (k.drive.getD 0)) ∈ (x.answerRequester t f).out.c := by
  simp only [Plant.answerRequester, hk, hr]
  exact List.mem_append_right _ (List.mem_singleton.mpr rfl)

theorem Plant.answerRequester_prefix (t : TaskNo) (f : Option Final) (x : Plant) :
    x.out.c <+: (x.answerRequester t f).out.c := by
  unfold Plant.answerRequester
  split
  · split
    · exact List.prefix_append _ _
    · exact List.prefix_rfl
  · exact List.prefix_rfl

end Answers

/-! ### The ending (R53) -/

/-- A record whose task has ended. -/
def Volume.unbound (t : TaskNo) (v : Volume) : Volume := if v.bound = some t then { v with bound := none } else v

/-- The first part of an ending: legs and reservations go. -/
def Plant.givesUp (e : Env) (t : TaskNo) (x : Plant) : Plant :=
  ((((x.dropLegs e t).releaseCell t).releaseHandoff t).releaseService t).releaseEntries t

theorem Plant.givesUp_spares (e : Env) (t : TaskNo) (a : Acc) (q : Serial) (c : CellNo) (x : Plant) :
    Plant.Spares t a q c x (x.givesUp e t) :=
  ((((Plant.Spares.dropLegs e t x).trans (Plant.Spares.releaseCell _)).trans (Plant.Spares.releaseHandoff _)).trans
    (Plant.Spares.releaseService _)).trans (Plant.Spares.releaseEntries _)

theorem Plant.withdrawOwn_none {e : Env} {t : TaskNo} {k : Task} {x : Plant} (hk : x.task? t = some k)
    (hp : k.prompt = none) :
    x.withdrawOwn e t = x := by
  simp [Plant.withdrawOwn, hk, hp]

/-- The second part: the bindings go, and the order and the requester are answered. -/
def Plant.paysUp (t : TaskNo) (f : Option Final) (x : Plant) : Plant :=
  (((x.unbindVol t).unbindDrive t).answerOrder t f).answerRequester t f

theorem Plant.endTask_eq {e : Env} {t : TaskNo} {m : Task} {x : Plant} (hm : (x.givesUp e t).task? t = some m)
    (hp : m.prompt = none) (f : Option Final) :
    x.endTask e t f = ((((x.givesUp e t).paysUp t f).orphanSlots t).outliveCarries t).putTask t none := by
  have hw := Plant.withdrawOwn_none (e := e) hm hp
  unfold Plant.givesUp at hw
  simp only [Plant.endTask, hw]
  rfl

theorem Plant.paysUp_frame (t : TaskNo) (f : Option Final) (x : Plant) :
    (x.paysUp t f).ltu.volumes = x.ltu.volumes.map (·.unbound t) ∧ (x.paysUp t f).ltu.cells = x.ltu.cells
      ∧ (x.paysUp t f).mou = x.mou ∧ x.out.c <+: (x.paysUp t f).out.c := by
  obtain ⟨h1, h2, -⟩ := Plant.answerRequester_frame t f (((x.unbindVol t).unbindDrive t).answerOrder t f)
  obtain ⟨g1, g2, -⟩ := Plant.answerOrder_frame t f ((x.unbindVol t).unbindDrive t)
  have hd := Plant.unbindDrive_frame t (x.unbindVol t)
  have hltu := h1.trans (g1.trans hd.1)
  refine ⟨congrArg Ltu.volumes hltu, (congrArg Ltu.cells hltu : _ = (x.unbindVol t).ltu.cells), ?_, ?_⟩
  · rw [Plant.paysUp, h2, g2]
    simp
    rfl
  · refine List.IsPrefix.trans ?_ ((Plant.answerOrder_prefix t f _).trans (Plant.answerRequester_prefix t f _))
    simp
    rfl

theorem Plant.paysUp_rests {t : TaskNo} {a : Acc} {q : Serial} {c : CellNo} {x : Plant} (hx : x.Rests a q c)
    (f : Option Final) :
    (x.paysUp t f).Rests a q c := by
  obtain ⟨hv, hc, hm, -⟩ := Plant.paysUp_frame t f x
  have he := Plant.entriesOf_map hv (fun v => by unfold Volume.unbound; split <;> rfl) q
  refine ⟨fun v hmem => ?_, (congrArg CellRec.occ (Plant.cell_congr hc c)).trans hx.occ,
    (congrArg AccCtx.leg (Plant.acc_congr hm a)).trans hx.leg, (congrArg AccCtx.gripper
        (Plant.acc_congr hm a)).trans hx.grip⟩
  rw [he] at hmem
  obtain ⟨u, hu, rfl⟩ := List.mem_map.mp hmem
  refine Eq.trans ?_ (hx.entries u hu)
  unfold Volume.unbound; split <;> rfl

theorem Plant.paysUp_tasks {t : TaskNo} {x : Plant} {m : Task} (hm : x.task? t = some m) (f : Option Final) :
    (∀ u, u ≠ t → (x.paysUp t f).task? u = x.task? u)
      ∧ (∀ p g, m.requester = some (p, g) →
          CFrame.status p (some g) .last (dismountStatus f (m.drive.getD 0)) ∈ (x.paysUp t f).out.c)
      ∧ ∀ p g r, m.origin = .path p g → m.answered = false → m.pending.or f = some r →
          CFrame.status p (some g) .last (.ended r m.tags) ∈ (x.paysUp t f).out.c := by
  have hz : ∀ u, ((x.unbindVol t).unbindDrive t).task? u = x.task? u := fun u =>
    Plant.task?_congr (y := (x.unbindVol t).unbindDrive t) (x := x) (by simp; rfl) u
  have hmz := (hz t).trans hm
  obtain ⟨⟨b, h1⟩, o1⟩ := Plant.answerOrder_task hmz f
  obtain ⟨h2, o2⟩ := Plant.answerRequester_task h1 f
  refine ⟨fun u hu => (o2 u hu).trans ((o1 u hu).trans (hz u)), fun p g hr => ?_, fun p g r ho ha hr => ?_⟩
  · exact Plant.answerRequester_sent h1 hr f
  · exact (Plant.answerRequester_prefix t f _).subset (Plant.answerOrder_sent hmz ho ha hr)

section End
variable {e : Env} {t : TaskNo} {k : Task} {x : Plant} {a : Acc} {q : Serial} {c : CellNo}

/-- The ending of a task that rests on no prompt, its volume in a cell: the volume is bound no more, the record is freed, and
what the order and the requester are owed has gone out. -/
theorem Plant.endTask_spares (hx : x.Rests a q c) (hk : x.task? t = some k) (hp : k.prompt = none) (f : Option Final) :
    (x.endTask e t f).vol? q = (x.vol? q).map (·.unbound t)
      ∧ ((x.endTask e t f).cell c).occ = .occupied q ∧ (x.endTask e t f).acc a = x.acc a
      ∧ (x.endTask e t f).task? t = none ∧ (∀ u, u ≠ t → (x.endTask e t f).task? u = x.task? u)
      ∧ (∀ p g, k.requester = some (p, g) →
          CFrame.status p (some g) .last (dismountStatus f (k.drive.getD 0)) ∈ (x.endTask e t f).out.c)
      ∧ ∀ p g r, k.origin = .path p g → k.answered = false → k.pending.or f = some r →
          CFrame.status p (some g) .last (.ended r k.tags) ∈ (x.endTask e t f).out.c := by
  have hy := Plant.givesUp_spares e t a q c x
  obtain ⟨m, hm, hd⟩ : ∃ m, (x.givesUp e t).task? t = some m ∧ m.debts = k.debts := by simpa [hk] using hy.own
  simp only [Task.debts, Prod.mk.injEq] at hd
  obtain ⟨horigin, hanswered, hrequester, hpending, htags, hdrive, hprompt⟩ := hd
  obtain ⟨hv, hc, hmou, -⟩ := Plant.paysUp_frame t f (x.givesUp e t)
  obtain ⟨others, requester, order⟩ := Plant.paysUp_tasks hm f
  have hrest := Plant.paysUp_rests (t := t) (hy.rests hx) f
  have hs : Plant.Spares t a q c ((x.givesUp e t).paysUp t f)
      ((((x.givesUp e t).paysUp t f).orphanSlots t).outliveCarries t) :=
    (Plant.Spares.orphanSlots _).trans (Plant.Spares.outliveCarries _)
  rw [Plant.endTask_eq hm (hprompt.trans hp)]
  generalize (((x.givesUp e t).paysUp t f).orphanSlots t).outliveCarries t = z at hs ⊢
  have hcell := Plant.cell_congr (y := z.putTask t none) (x := z) rfl c
  refine ⟨?_, (congrArg CellRec.occ hcell).trans
      ((hs.occ hrest).trans hrest.occ), ?_, Plant.task?_putTask_same t none _, fun u hu => ?_, fun p g hr => ?_,
    fun p g r ho ha hr => ?_⟩
  · calc _ = (((x.givesUp e t).paysUp t f).entriesOf q).head? := by
          rw [← hs.entries hrest, ← Plant.vol?_eq_head, Plant.vol?_congr (y := z.putTask t none) (x := z) rfl]
      _ = (x.vol? q).map (·.unbound t) := by
          rw [Plant.entriesOf_map hv (fun v => by unfold Volume.unbound; split <;> rfl), hy.entries hx, List.head?_map,
            ← Plant.vol?_eq_head]
  · exact (Plant.acc_congr (y := z.putTask t none) (x := z) rfl a).trans ((hs.acc hrest).trans
      ((Plant.acc_congr hmou a).trans (hy.acc hx)))
  · exact (Plant.task?_putTask_other (Ne.symm hu) none z).trans ((hs.others u hu).trans
      ((others u hu).trans (hy.others u hu)))
  · have hsent := requester p g (hrequester.trans hr)
    rw [hdrive] at hsent
    exact hs.sent.subset hsent
  · have hsent := order p g r (horigin.trans ho) (hanswered.trans ha) (by rw [hpending]; exact hr)
    rw [htags] at hsent
    exact hs.sent.subset hsent

end End

end Sys2Proof.Machine
end

section
/-!
SUPPORT. A task's reel set down in its cell (R7, R53, R71).
-/
namespace Sys2Proof.Machine

/-! ### A reel set down in its cell (R7, R53, R65, R71) -/

theorem Volume.unbound_of {t : TaskNo} {v : Volume} (h : v.bound = some t) : v.unbound t =
    { v with bound := none } := if_pos h

section Cell
variable {e : Env} {a : Acc} {q : Serial} {v : Volume} {x : Plant} {l : Leg} {t : TaskNo} {k : Task} {c : CellNo}

/-- A refile request for a volume that a task is bound to is at most its pending mark (R7, R76). -/
theorem Plant.refileRequest_bound {w : Volume} (hw : x.vol? q = some w) (hb : w.bound ≠ none) :
    x.refileRequest e q = if w.misfiled then x.updVol q ({ · with refilePending := true }) else x := by
  have hr : ¬ x.refileReady w = true := by
    cases hb' : w.bound with
    | none => exact absurd hb' hb
    | some t => simp [Plant.refileReady, hb']
  simp only [Plant.refileRequest, hw, if_neg hr]

/-- The plant once a task's reel has come to a cell, before the task ends. -/
def Plant.homed (e : Env) (a : Acc) (q : Serial) (c : CellNo) (x : Plant) : Plant :=
  (x.landed e a q (.cell c)).refileRequest e q

section
variable (hv : x.vol? q = some v) (hb : v.bound = some t)
include hv hb

theorem Plant.homed_eq : x.homed e a q c = if (v.at_ (.cell c)).misfiled
    then (x.landed e a q (.cell c)).updVol q ({ · with refilePending := true }) else x.landed e a q (.cell c) :=
  Plant.refileRequest_bound (Plant.vol?_landed hv _) (by simp [Volume.at_, hb])

theorem Plant.vol?_homed : (x.homed e a q c).vol? q
    = some { v.at_ (.cell c) with refilePending := (v.at_ (.cell c)).misfiled } := by
  have hz := Plant.vol?_landed (e := e) (a := a) hv (.cell c)
  rw [Plant.homed_eq hv hb]
  split
  · rename_i hm
    rw [Plant.vol?_updVol (f := ({ · with refilePending := true })) (fun _ => rfl), if_pos rfl, hz]
    simp [hm]
  · rename_i hm
    rw [hz]
    have hm : (v.at_ (.cell c)).misfiled = false := by simpa using hm
    have hp := Volume.at_pending hm
    rw [hm, ← hp]

theorem Plant.homed_frame : (x.homed e a q c).tcu = x.tcu ∧ (x.homed e a q c).mou = (x.landed e a q (.cell c)).mou := by
  rw [Plant.homed_eq hv hb]
  split <;> exact ⟨(Plant.landed_frame e a q (.cell c) x).1, rfl⟩

theorem Plant.homed_rests (hheld : e.held = false) : (x.homed e a q c).Rests a q c := by
  obtain ⟨hg, hleg, -⟩ := Plant.acc_landed (x := x) hv (.cell c) hheld
  have hacc := Plant.acc_congr (Plant.homed_frame (e := e) (a := a) (c := c) hv hb).2 a
  have hmoved : ∀ w ∈ (x.landed e a q (.cell c)).entriesOf q, w.loc = .cell c := fun w hw => by
    have he := Plant.moveVol_volumes ((Plant.vol?_unstepped a q x).trans hv) (.cell c)
    rw [Plant.entriesOf_map ((congrArg Ltu.volumes (Plant.landed_ltu e a q (.cell c) x)).trans he) (by simp)] at hw
    obtain ⟨u, hu, rfl⟩ := List.mem_map.mp hw
    have hs : u.serial = q := by simpa [Plant.entriesOf] using (List.mem_filter.mp hu).2
    rw [Volume.moved, if_pos hs]
    rfl
  refine ⟨fun w hw => ?_, ?_, (congrArg AccCtx.leg hacc).trans hleg, (congrArg AccCtx.gripper hacc).trans hg⟩
  · rw [Plant.homed_eq hv hb] at hw
    split at hw
    · rw [Plant.entriesOf_map (f := fun w => if w.serial = q then { w with refilePending := true } else w) rfl
        (by intro w; split <;> rfl)] at hw
      obtain ⟨u, hu, rfl⟩ := List.mem_map.mp hw
      refine Eq.trans ?_ (hmoved u hu)
      split <;> rfl
    · exact hmoved w hw
  · have hocc := Plant.occ_landed (e := e) (a := a) hv c
    rw [Plant.homed_eq hv hb]
    split <;> exact hocc

end

theorem Plant.placed_cell (hv : x.vol? q = some v) (hb : v.bound = some t) (hheld : e.held = false)
    (hk : x.task? t = some k) (hp : k.prompt = none) (via : Bool) :
    ∃ (y : Plant) (w : Volume), (x.homed e a q c).advance e t l via (.cell c) = y ∧ y.vol? q = some w
      ∧ w.loc = .cell c ∧ w.bound = none ∧ (w.misfiled = true ↔ (v.cls = .resident ∧ v.home ≠ some c))
      ∧ w.refilePending = w.misfiled ∧ (y.cell c).occ = .occupied q ∧ y.task? t = none
      ∧ y.acc a = (x.landed e a q (.cell c)).acc a ∧ (∀ u, u ≠ t → y.task? u = x.task? u)
      ∧ (∀ p g, k.requester = some (p, g) → CFrame.status p (some g) .last (.dismounted (k.drive.getD 0)) ∈ y.out.c)
      ∧ ∀ p g r, k.origin = .path p g → k.answered = false → k.pending = some r →
          CFrame.status p (some g) .last (.ended r k.tags) ∈ y.out.c := by
  obtain ⟨htcu, hmou⟩ := Plant.homed_frame (e := e) (a := a) (c := c) hv hb
  have hkz := (Plant.task?_congr htcu t).trans hk
  obtain ⟨h1, h2, h3, h4, h5, h6, h7⟩ := Plant.endTask_spares (e := e) (Plant.homed_rests
      (e := e) hv hb hheld) hkz hp none
  rw [Plant.vol?_homed hv hb, Option.map_some, Volume.unbound_of (by exact hb)] at h1
  refine ⟨(x.homed e a q c).endTask e t none, _, by simp only [Plant.advance, hkz], h1, rfl, rfl, ?_, rfl, h2, h4,
    h3.trans (Plant.acc_congr hmou a), fun u hu => (h5 u hu).trans (Plant.task?_congr htcu u), h6, fun p g r ho ha hr =>
      h7 p g r ho ha (by simp [hr])⟩
  refine (Volume.misfiledAt_iff v (.cell c)).trans ?_
  simp

end Cell

end Sys2Proof.Machine
end

section
/-!
SUPPORT. The carry of a wrong reel set down (R68).
-/
namespace Sys2Proof.Machine

/-! ### The carry of a wrong reel set down (R68) -/

theorem Plant.mem_requestRecovery (r : Request) (x : Plant) : r ∈ (x.requestRecovery r).tcu.requests := by
  unfold Plant.requestRecovery
  split
  · assumption
  · exact List.mem_append_right _ (List.mem_singleton.mpr rfl)

theorem Plant.requestRecovery_tasks (r : Request) (x : Plant) : (x.requestRecovery r).tcu.tasks = x.tcu.tasks := by
  unfold Plant.requestRecovery
  split <;> rfl

theorem Plant.refileRequest_legless (e : Env) (s : Serial) {a : Acc} {x : Plant} (h : (x.acc a).leg = none) :
    (x.refileRequest e s).acc a = x.acc a := by
  unfold Plant.refileRequest
  split
  · rename_i v _
    split
    · split
      · unfold Plant.createRefile
        split
        · rename_i t c _ _
          have hmou : ∀ y : Plant, y.mou = x.mou → (y.planMove e t .store).acc a = x.acc a := fun y hy =>
            ((Plant.Plans.planMove e .store y).legless a (by rw [Plant.acc_congr hy]; exact h)).trans
                (Plant.acc_congr hy a)
          refine hmou _ ?_
          simp [Plant.reserveCell, Plant.setOcc]
        · rfl
      · cases a <;> rfl
    · rfl
  · rfl

/-- A reel of no known volume set down, its leg at an end. -/
def Plant.landedUnknown (e : Env) (a : Acc) (dst : Location) (x : Plant) : Plant :=
  ((x.unstepped a).placeUnknown dst).lowered e a

section Carried
variable {e : Env} {a : Acc} {x : Plant} {l : Leg} {dst : Location} {t : TaskNo} {live : Bool}

theorem Plant.inGrip_none (hg : (x.acc a).gripper = .unknownReel) : x.inGrip a = none := by
  simp [Plant.inGrip, hg]

theorem Plant.setDown_unknown (hg : (x.acc a).gripper = .unknownReel) :
    ((x.unstepped a).setDown a dst).endLeg e a = x.landedUnknown e a dst := by
  have hu : ((x.unstepped a).acc a).gripper = .unknownReel := by rw [Plant.acc_unstepped]; exact hg
  simp only [Plant.setDown, hu, Plant.inGrip_none hu]
  rfl

/-- The reports of a carry set down: the reel is in its place, and then what `carried` has done. -/
theorem Plant.placeDone_found_known (hleg : (x.acc a).leg = some l) (ho : l.owner = .found t live)
    (hd : l.dst = some dst)
    {q : Serial} {v : Volume} (hg : (x.acc a).gripper = .known q) (hv : x.vol? q = some v) (hl : v.loc = .gripper a) :
    x.placeDone e a = (x.landed e a q dst).carried e (x.acc a).viaEntry (some q) dst := by
  have hdown := Plant.setDown_known hg hv hl e dst
  unfold Plant.unstepped at hdown
  simp only [Plant.placeDone, hleg, ho, hd, Plant.inGrip_some hg hv hl, hdown]

theorem Plant.placeDone_found_unknown (hleg : (x.acc a).leg = some l) (ho : l.owner = .found t live)
    (hd : l.dst = some dst)
    (hg : (x.acc a).gripper = .unknownReel) :
    x.placeDone e a = (x.landedUnknown e a dst).carried e (x.acc a).viaEntry none dst := by
  have hdown := Plant.setDown_unknown (e := e) (dst := dst) hg
  unfold Plant.unstepped at hdown
  simp only [Plant.placeDone, hleg, ho, hd, Plant.inGrip_none hg, hdown]

theorem Plant.placeUnknown_frame (dst : Location) (x : Plant) :
    (x.placeUnknown dst).tcu = x.tcu ∧ (x.placeUnknown dst).dru = x.dru := by
  unfold Plant.placeUnknown
  split <;> simp [Plant.setOcc]

theorem Plant.landedUnknown_frame (hheld : e.held = false) :
    (x.landedUnknown e a dst).tcu = x.tcu ∧ (x.landedUnknown e a dst).dru = x.dru
      ∧ ((x.landedUnknown e a dst).acc a).gripper = .empty ∧ ((x.landedUnknown e a dst).acc a).leg = none
      ∧ ((x.landedUnknown e a dst).acc a).state = .idle := by
  obtain ⟨-, h1, h2, -⟩ := Plant.lowered_frame e a ((x.unstepped a).placeUnknown dst)
  obtain ⟨g1, g2⟩ := Plant.placeUnknown_frame dst (x.unstepped a)
  obtain ⟨-, k1, k2, -⟩ := Plant.unstepped_frame a x
  refine ⟨h1.trans (g1.trans k1), h2.trans (g2.trans k2), ?_⟩
  rw [Plant.landedUnknown, Plant.acc_lowered hheld]
  exact ⟨rfl, rfl, rfl⟩

/-- A slot whose reel no task holds, and for which a RECOVERY task is asked. -/
def Plant.leftIn (n : Fin 8) (s : Slot) (x : Plant) : Plant := (x.setService n s).requestRecovery (.service n)

theorem Plant.leftIn_frame (n : Fin 8) (s : Slot) (x : Plant) :
    (x.leftIn n s).service n = s ∧ (x.leftIn n s).mou = x.mou ∧ (x.leftIn n s).dru = x.dru
      ∧ (x.leftIn n s).tcu.tasks = x.tcu.tasks ∧ (x.leftIn n s).ltu.volumes = x.ltu.volumes
      ∧ Request.service n ∈ (x.leftIn n s).tcu.requests := by
  obtain ⟨h1, h2, h3, -⟩ := Plant.requestRecovery_frame (.service n) (x.setService n s)
  exact ⟨(Plant.service_congr (congrArg Ltu.service h1) n).trans (Plant.service_setService_same n s x), h2, h3,
    Plant.requestRecovery_tasks _ _,
    (congrArg Ltu.volumes h1 : _ = (x.setService n s).ltu.volumes), Plant.mem_requestRecovery _ _⟩

/-- What the placement of a carry leaves in a service slot (R68). -/
structure Plant.CarriedToSlot (a : Acc) (n : Fin 8) (g : Option Serial) (x y : Plant) : Prop where
  gripper : (y.acc a).gripper = .empty
  leg : (y.acc a).leg = none
  idle : (y.acc a).state = .idle
  occupied : (y.service n).state = .occupied
  task : (y.service n).task = none
  asked : Request.service n ∈ y.tcu.requests
  unknown : g = none → (y.service n).content = some .unknown
  known : ∀ q, g = some q → (y.service n).content = some (.known q)
    ∧ (y.vol? q).map (fun v : Volume => v.loc) = some (.service n)
  tasks : y.tcu.tasks = x.tcu.tasks
  drives : y.dru = x.dru

theorem Plant.carried_service_unknown (hheld : e.held = false) (n : Fin 8) (via : Bool) :
    Plant.CarriedToSlot a n none x ((x.landedUnknown e a (.service n)).carried e via none (.service n)) := by
  obtain ⟨htcu, hdru, hg, hl, hs⟩ := Plant.landedUnknown_frame (e := e) (a := a) (x := x) (dst := .service n) hheld
  obtain ⟨f1, f2, f3, f4, -, f6⟩ := Plant.leftIn_frame n (Slot.hold .unknown none) (x.landedUnknown e a (.service n))
  have hacc := Plant.acc_congr f2 a
  exact {
    gripper := (congrArg AccCtx.gripper hacc).trans hg
    leg := (congrArg AccCtx.leg hacc).trans hl
    idle := (congrArg AccCtx.state hacc).trans hs
    occupied := congrArg Slot.state f1
    task := congrArg Slot.task f1
    asked := f6
    unknown := fun _ => congrArg Slot.content f1
    known := fun _ h => by cases h
    tasks := f4.trans (congrArg Tcu.tasks htcu)
    drives := f3.trans hdru }

theorem Plant.landedUnknown_cell (c : CellNo) : ((x.landedUnknown e a (.cell c)).cell c).occ = .foreign := by
  have h := (Plant.lowered_frame e a ((x.unstepped a).placeUnknown (.cell c))).1
  rw [Plant.landedUnknown, Plant.cell_congr (congrArg Ltu.cells h), Plant.placeUnknown, Plant.cell_setOcc, if_pos rfl]

section Known
variable {q : Serial} {v : Volume} (hv : x.vol? q = some v) (hl : v.loc = .gripper a) (hb : v.bound = none)
  (hheld : e.held = false)
include hv hl hb hheld

theorem Plant.carried_service_known (n : Fin 8) (via : Bool) :
    Plant.CarriedToSlot a n (some q) x ((x.landed e a q (.service n)).carried e via (some q) (.service n)) := by
  obtain ⟨htcu, hdru, -⟩ := Plant.landed_frame e a q (.service n) x
  obtain ⟨hg, hleg, -, hs, -⟩ := Plant.acc_landed (x := x) hv (.service n) hheld
  have hvol := Plant.vol?_landed (e := e) (a := a) hv (.service n)
  have hslot := Plant.service_landed (e := e) hv hl n
  have heq : (x.landed e a q (.service n)).carried e via (some q) (.service n)
      = (x.landed e a q (.service n)).leftIn n { (x.landed e a q (.service n)).service n with task := none } := by
    simp only [Plant.carried, Plant.handTo, hvol, Option.bind_some, Volume.at_, hb]
    rfl
  obtain ⟨f1, f2, f3, f4, f5, f6⟩ := Plant.leftIn_frame n { (x.landed e a q (.service n)).service n with task := none }
    (x.landed e a q (.service n))
  have hacc := Plant.acc_congr f2 a
  rw [heq]
  exact {
    gripper := (congrArg AccCtx.gripper hacc).trans hg
    leg := (congrArg AccCtx.leg hacc).trans hleg
    idle := (congrArg AccCtx.state hacc).trans hs
    occupied := (congrArg Slot.state f1).trans (congrArg Slot.state hslot)
    task := congrArg Slot.task f1
    asked := f6
    unknown := fun h => by cases h
    known := fun r h => by
      obtain rfl := Option.some.inj h
      exact ⟨(congrArg Slot.content f1).trans (congrArg Slot.content hslot),
        congrArg (Option.map _) ((Plant.vol?_congr f5 q).trans hvol)⟩
    tasks := f4.trans (congrArg Tcu.tasks htcu)
    drives := f3.trans hdru }

omit hl in
theorem Plant.carried_cell_known (c : CellNo) (via : Bool) :
    ∃ y : Plant, (x.landed e a q (.cell c)).carried e via (some q) (.cell c) = y
      ∧ (y.acc a).gripper = .empty ∧ (y.acc a).leg = none ∧ (y.acc a).state = .idle
      ∧ (y.cell c).occ = .occupied q ∧ (y.vol? q).map (fun v : Volume => v.loc) = some (.cell c) ∧ y.dru = x.dru := by
  obtain ⟨-, hdru, -⟩ := Plant.landed_frame e a q (.cell c) x
  obtain ⟨hg, hleg, -, hs, -⟩ := Plant.acc_landed (a := a) hv (.cell c) hheld
  have hvol := Plant.vol?_landed (e := e) (a := a) hv (.cell c)
  have hocc := Plant.occ_landed (e := e) (a := a) hv c
  have mis := Volume.misfiledAt_iff v (.cell c)
  have hr := Plant.refileRequest_refiled (e := e) hvol fun hm d hd hl => by
    obtain ⟨-, b, hb, hn⟩ := mis.mp hm
    obtain rfl : d = c := (Location.cell.inj hl).symm
    obtain rfl : d = b := Location.cell.inj hb
    exact hn hd
  have hacc := Plant.refileRequest_legless e q hleg
  obtain ⟨b, p, hown, -⟩ := hr.own
  refine ⟨(x.landed e a q (.cell c)).refileRequest e q, by simp only [Plant.carried, hvol, Option.bind_some, Volume.at_, hb],
    (congrArg AccCtx.gripper hacc).trans hg, (congrArg AccCtx.leg hacc).trans hleg,
        (congrArg AccCtx.state hacc).trans hs,
    ?_, ?_, (Plant.refileRequest_frame e q _).1.trans hdru⟩
  · by_cases hm : (v.at_ (.cell c)).misfiled = true
    · obtain ⟨-, b, hb, hn⟩ := mis.mp hm
      obtain rfl : c = b := Location.cell.inj hb
      exact (hr.occs c hn).trans hocc
    · exact (hr.settled (by simpa using hm) c).trans hocc
  · have hs : v.serial = q := Plant.vol?_serial hv
    rw [show (v.at_ (.cell c)).serial = q from hs] at hown
    rw [hown]
    rfl

end Known

end Carried

end Sys2Proof.Machine
end

section
/-!
SUPPORT. The carry of a wrong reel blocked (R16, R70).
-/
namespace Sys2Proof.Machine

/-! ### A placement blocked: the reel stays in the gripper and the leg ends (R70) -/

/-- An accessor that keeps its reel, its leg at an end. -/
def Plant.halted (e : Env) (a : Acc) (x : Plant) : Plant := (x.unstepped a).endLeg e a

section Halted
variable {e : Env} {a : Acc} {x : Plant}

theorem Plant.halted_frame (e : Env) (a : Acc) (x : Plant) :
    (x.halted e a).ltu = x.ltu ∧ (x.halted e a).tcu = x.tcu ∧ (x.halted e a).dru = x.dru
      ∧ (x.halted e a).pru = x.pru ∧ (x.halted e a).mou.queue = x.mou.queue
      ∧ (x.halted e a).mou.handoff = x.mou.handoff := by
  obtain ⟨h1, h2, h3, h4, -⟩ := Plant.endLeg_frame e a (x.unstepped a)
  obtain ⟨h5, h6⟩ := Plant.endLeg_mou (e := e) (a := a) (x.unstepped a)
  obtain ⟨g1, g2, g3, g4, -, -, -, g5, g6⟩ := Plant.unstepped_frame a x
  exact ⟨h1.trans g1, h2.trans g2, h3.trans g3, h4.trans g4, h5.trans g5, h6.trans g6⟩

theorem Plant.acc_halted (hheld : e.held = false) :
    ((x.halted e a).acc a).gripper = (x.acc a).gripper ∧ ((x.halted e a).acc a).leg = none
      ∧ ((x.halted e a).acc a).step = none ∧ ((x.halted e a).acc a).state = .idle := by
  rw [Plant.halted, Plant.acc_endLeg_self _ hheld, Plant.acc_unstepped]
  exact ⟨rfl, rfl, rfl, rfl⟩

theorem Plant.vol?_halted (q : Serial) : (x.halted e a).vol? q = x.vol? q :=
  Plant.vol?_congr (congrArg Ltu.volumes (Plant.halted_frame e a x).1) q

theorem Plant.cell_halted (c : CellNo) : (x.halted e a).cell c = x.cell c :=
  Plant.cell_congr (congrArg Ltu.cells (Plant.halted_frame e a x).1) c

end Halted

/-! ### The free-cell choice where a cell is marked (R19) -/

theorem Plant.freeCell_congr {x y : Plant}
    (h : ∀ c, ((y.cell c).occ = .empty ∧ (y.cell c).homeOf = none) ↔
        ((x.cell c).occ = .empty ∧ (x.cell c).homeOf = none)) :
    y.freeCell = x.freeCell := by
  unfold Plant.freeCell
  congr 1
  funext c
  exact decide_eq_decide.mpr (h c)

/-- A cell that is not EMPTY, and does not become so, plays no part in the free-cell choice. -/
theorem Plant.freeCell_setOcc {x : Plant} {c : CellNo} {o : Occ} (hx : (x.cell c).occ ≠ .empty) (ho : o ≠ .empty) :
    (x.setOcc c o).freeCell = x.freeCell := by
  refine Plant.freeCell_congr fun d => ?_
  rw [Plant.cell_setOcc]
  split
  · rename_i h
    rw [h]
    exact ⟨fun g => absurd g.1 ho, fun g => absurd g.1 hx⟩
  · rfl

theorem Plant.setOcc_frame (c : CellNo) (o : Occ) (x : Plant) :
    (x.setOcc c o).tcu = x.tcu ∧ (x.setOcc c o).mou = x.mou ∧ (x.setOcc c o).dru = x.dru ∧ (x.setOcc c o).pru = x.pru
      ∧ (x.setOcc c o).ltu.service = x.ltu.service ∧ (x.setOcc c o).ltu.entry = x.ltu.entry := by
  simp [Plant.setOcc]

/-- A volume that is in no cell stays where it is when a cell is marked. -/
theorem Plant.vol?_setOcc_of {x : Plant} {q : Serial} {v : Volume} (hv : x.vol? q = some v) {c : CellNo}
    (hl : v.loc ≠ .cell c)
    (o : Occ) : (x.setOcc c o).vol? q = some v := by
  rw [Plant.vol?_setOcc, hv, Option.map_some, Volume.evicted_stays (.inl hl)]

/-! ### The carry of a wrong reel blocked at the cell it is put back in (R16, R70) -/

/-- What a blocked carry leaves, whatever it does next: the cell is SUSPECT, and the reel is in the gripper. -/
structure Plant.CarryBlocked (a : Acc) (c : CellNo) (x y : Plant) : Prop where
  gripper : (y.acc a).gripper = (x.acc a).gripper
  leg : (y.acc a).leg = none
  idle : (y.acc a).state = .idle
  suspect : (y.cell c).occ = .suspect
  drives : y.dru = x.dru

/-- The carry's next leg is in the queue. -/
def Plant.CarryQueued (t : TaskNo) (live : Bool) (a : Acc) (dst : Location) (y : Plant) : Prop :=
  ∃ g ∈ y.mou.queue, g.owner = .found t live ∧ g.cls = .recovery ∧ g.src = .gripper a ∧ g.dst = some dst

section Carry
variable {e : Env} {a : Acc} {x : Plant} {t : TaskNo} {live : Bool} {c : CellNo}

theorem Plant.carryTo_queued (dst : Location) : Plant.CarryQueued t live a dst (x.carryTo e a t live dst) :=
  ⟨_, mem_insertLeg _ _ _, rfl, rfl, rfl, rfl⟩

/-- The state of a blocked carry once its cell is marked. -/
def Plant.carrySuspect (e : Env) (a : Acc) (c : CellNo) (x : Plant) : Plant := (x.halted e a).setOcc c .suspect

theorem Plant.carrySuspect_blocked (hheld : e.held = false) : Plant.CarryBlocked a c x (x.carrySuspect e a c) := by
  obtain ⟨h1, h2, -, h3⟩ := Plant.acc_halted (x := x) (a := a) hheld
  obtain ⟨-, hmou, hdru, -⟩ := Plant.setOcc_frame c .suspect (x.halted e a)
  have hacc := Plant.acc_congr hmou a
  refine ⟨(congrArg AccCtx.gripper hacc).trans h1, (congrArg AccCtx.leg hacc).trans h2,
      (congrArg AccCtx.state hacc).trans h3,
    ?_, hdru.trans (Plant.halted_frame e a x).2.2.1⟩
  rw [Plant.carrySuspect, Plant.cell_setOcc, if_pos rfl]

/-- A change that leaves the cell, the accessor and the drives as they are. -/
theorem Plant.CarryBlocked.congr {y z : Plant} (h : Plant.CarryBlocked a c x y) (hacc : z.acc a = y.acc a)
    (hocc : (z.cell c).occ = (y.cell c).occ) (hdru : z.dru = y.dru) : Plant.CarryBlocked a c x z where
  gripper := (congrArg AccCtx.gripper hacc).trans h.gripper
  leg := (congrArg AccCtx.leg hacc).trans h.leg
  idle := (congrArg AccCtx.state hacc).trans h.idle
  suspect := hocc.trans h.suspect
  drives := hdru.trans h.drives

theorem Plant.carryTo_blocked {y : Plant} (h : Plant.CarryBlocked a c x y) (dst : Location) :
    Plant.CarryBlocked a c x (y.carryTo e a t live dst) := h.congr (by cases a <;> rfl) rfl rfl

theorem Plant.carryService_blocked {y : Plant} (h : Plant.CarryBlocked a c x y) :
    Plant.CarryBlocked a c x (y.carryService e a t live) := by
  unfold Plant.carryService
  split
  · rename_i n _
    have hn : Plant.CarryBlocked a c x (y.setService n (Slot.reserve t)) := h.congr (by cases a <;> rfl) rfl rfl
    exact Plant.carryTo_blocked hn _
  · obtain ⟨h1, h2, h3, -⟩ := Plant.requestRecovery_frame (.gripper a) y
    exact h.congr (Plant.acc_congr h2 a) (congrArg CellRec.occ (Plant.cell_congr (congrArg Ltu.cells h1) c)) h3

theorem Plant.carryHandoff_blocked {y : Plant} (h : Plant.CarryBlocked a c x y) :
    Plant.CarryBlocked a c x (y.carryHandoff e a t live) := by
  unfold Plant.carryHandoff
  split
  · rename_i n _
    have hn : Plant.CarryBlocked a c x (y.setHandoff n (Slot.reserve t)) := h.congr (by cases a <;> rfl) rfl rfl
    exact Plant.carryTo_blocked hn _
  · exact Plant.carryService_blocked h

/-- The reel in the gripper: one of no known volume, or a resident's that is there. -/
def Plant.Carries (a : Acc) (g : Option Serial) (x : Plant) : Prop :=
  (g = none ∧ (x.acc a).gripper = .unknownReel)
    ∨ ∃ q v, g = some q ∧ (x.acc a).gripper = .known q ∧ x.vol? q = some v ∧ v.loc = .gripper a ∧ v.cls = .resident

theorem Plant.carryHome_eq {g : Option Serial} (hheld : e.held = false) (hg : x.Carries a g)
    (hc : (x.cell c).occ ≠ .empty) {c2 : CellNo} (hf : x.freeCell = some c2) :
    (x.carrySuspect e a c).carryHome e a t live
      = if (Location.cell c2).within a
        then ((x.carrySuspect e a c).setOcc c2 (.reserved g t)).carryTo e a t live (.cell c2)
        else (x.carrySuspect e a c).carryHandoff e a t live := by
  have hgr : ((x.carrySuspect e a c).acc a).gripper = (x.acc a).gripper := (Plant.carrySuspect_blocked hheld).gripper
  have hfree : (x.carrySuspect e a c).freeCell = some c2 := by
    rw [Plant.carrySuspect, Plant.freeCell_setOcc (by rw [Plant.cell_halted]; exact hc) (by simp), ← hf]
    exact Plant.freeCell_congr fun d => by rw [Plant.cell_halted]
  obtain ⟨rfl, hu⟩ | ⟨q, v, rfl, hk, hv, hl, hr⟩ := hg
  · have hin : (x.carrySuspect e a c).inGrip a = none := Plant.inGrip_none (hgr.trans hu)
    simp only [Plant.carryHome, Plant.carryCell, hin, Option.bind_none, hfree]
  · have hvs : (x.carrySuspect e a c).vol? q = some v :=
      Plant.vol?_setOcc_of ((Plant.vol?_halted q).trans hv) (by simp [hl]) _
    have hin : (x.carrySuspect e a c).inGrip a = some q := Plant.inGrip_some (hgr.trans hk) hvs hl
    simp only [Plant.carryHome, Plant.carryCell, hin, Option.bind_some, hvs, hr, hfree]

theorem Plant.blockedDone_found {l : Leg} (hleg : (x.acc a).leg = some l) (ho : l.owner = .found t live)
    {dst : Location}
    (hd : l.dst = some dst) : x.blockedDone e a = (x.halted e a).blockedCarry e a t live dst := by
  simp only [Plant.blockedDone, hleg, ho, hd]
  rfl

/-- The carry of a wrong reel blocked at its cell goes to the free-cell choice, through a handoff slot where that cell is
beyond the accessor's reach. -/
theorem Plant.blocked_carry {g : Option Serial} (hheld : e.held = false) (hg : x.Carries a g)
    (hc : (x.cell c).occ ≠ .empty) {c2 : CellNo} (hf : x.freeCell = some c2) :
    ∃ y : Plant, (x.halted e a).blockedCarry e a t live (.cell c) = y ∧ Plant.CarryBlocked a c x y
      ∧ ((Location.cell c2).within a = true → y.tcu = x.tcu ∧ (y.cell c2).occ = .reserved g t
          ∧ Plant.CarryQueued t live a (.cell c2) y)
      ∧ ∀ h, (Location.cell c2).within a = false → x.emptyHandoff = some h → y.tcu = x.tcu
          ∧ y.handoff h = Slot.reserve t ∧ Plant.CarryQueued t live a (.handoff h) y := by
  have hcc : c ≠ c2 := fun h => hc (h ▸ (Plant.freeCell_some hf).2.1)
  have hb := Plant.carrySuspect_blocked (c := c) (x := x) (a := a) hheld
  have htcu : (x.carrySuspect e a c).tcu = x.tcu := (Plant.setOcc_frame c .suspect _).1.trans
      (Plant.halted_frame e a x).2.1
  refine ⟨_, Plant.carryHome_eq hheld hg hc hf, ?_, fun hw => ?_, fun h hw hh => ?_⟩
  · split
    · refine Plant.carryTo_blocked (hb.congr (Plant.acc_congr (Plant.setOcc_frame c2 _ _).2.1 a) ?_
        (Plant.setOcc_frame c2 _ _).2.2.1) _
      rw [Plant.cell_setOcc, if_neg hcc]
    · exact Plant.carryHandoff_blocked hb
  · rw [if_pos hw]
    refine ⟨(Plant.setOcc_frame c2 (.reserved g t) (x.carrySuspect e a c)).1.trans htcu, ?_, Plant.carryTo_queued _⟩
    change ((((x.carrySuspect e a c).setOcc c2 (.reserved g t))).cell c2).occ = _
    rw [Plant.cell_setOcc, if_pos rfl]
  · rw [if_neg (by simp [hw])]
    have hmou : (x.carrySuspect e a c).mou.handoff = x.mou.handoff :=
      (congrArg Mou.handoff (Plant.setOcc_frame c .suspect _).2.1).trans (Plant.halted_frame e a x).2.2.2.2.2
    have hempty : (x.carrySuspect e a c).emptyHandoff = some h := by
      rw [← hh]
      unfold Plant.emptyHandoff Plant.handoff
      rw [hmou]
    simp only [Plant.carryHandoff, hempty]
    exact ⟨htcu, Plant.handoff_setHandoff_same h _ (x.carrySuspect e a c), Plant.carryTo_queued _⟩

end Carry

end Sys2Proof.Machine
end

section
/-!
SUPPORT. A task's placement blocked: the reel in the gripper, and its way to the service rack (R60, R70).
-/
namespace Sys2Proof.Machine

/-! ### A task's placement blocked (R70) -/

/-- The reel of a blocked placement is in the gripper still, the accessor without a leg, and no other task is written. -/
structure Plant.Holds (a : Acc) (q : Serial) (v : Volume) (t : TaskNo) (x y : Plant) : Prop where
  gripper : (y.acc a).gripper = .known q
  leg : (y.acc a).leg = none
  step : (y.acc a).step = none
  idle : (y.acc a).state = .idle
  vol : y.vol? q = some v
  others : ∀ u, u ≠ t → y.task? u = x.task? u

namespace Plant.Holds
variable {e : Env} {a : Acc} {q : Serial} {v : Volume} {t : TaskNo} {x y z : Plant}

theorem halted (hheld : e.held = false) (hg : (x.acc a).gripper = .known q) (hv : x.vol? q = some v) :
    Plant.Holds a q v t x (x.halted e a) := by
  obtain ⟨h1, h2, h3, h4⟩ := Plant.acc_halted (x := x) (a := a) hheld
  exact ⟨h1.trans hg, h2, h3, h4, (Plant.vol?_halted q).trans hv, fun u _ => Plant.task?_congr
      (Plant.halted_frame e a x).2.1 u⟩

theorem congr (h : Plant.Holds a q v t x y) (hacc : z.acc a = y.acc a) (hv : z.vol? q = some v)
    (ht : ∀ u, u ≠ t → z.task? u = y.task? u) : Plant.Holds a q v t x z where
  gripper := (congrArg AccCtx.gripper hacc).trans h.gripper
  leg := (congrArg AccCtx.leg hacc).trans h.leg
  step := (congrArg AccCtx.step hacc).trans h.step
  idle := (congrArg AccCtx.state hacc).trans h.idle
  vol := hv
  others u hu := (ht u hu).trans (h.others u hu)

theorem plans (h : Plant.Holds a q v t x y) (p : Plant.Plans t y z) : Plant.Holds a q v t x z :=
  h.congr (p.legless a h.leg) ((Plant.vol?_congr (congrArg Records.volumes p.records) q).trans h.vol) p.others

theorem updTask (h : Plant.Holds a q v t x y) (f : Task → Task) : Plant.Holds a q v t x (y.updTask t f) :=
  h.congr (by cases a <;> rfl) h.vol fun _ hu => Plant.task?_updTask_other (Ne.symm hu) f y

theorem setOcc (h : Plant.Holds a q v t x y) (hl : v.loc = .gripper a) (c : CellNo) (o : Occ) :
    Plant.Holds a q v t x (y.setOcc c o) := by
  obtain ⟨h1, h2, -⟩ := Plant.setOcc_frame c o y
  exact h.congr (Plant.acc_congr h2 a) (Plant.vol?_setOcc_of h.vol (by simp [hl]) o) fun u _ => Plant.task?_congr h1 u

theorem setService (h : Plant.Holds a q v t x y) (n : Fin 8) (s : Slot) : Plant.Holds a q v t x (y.setService n s) :=
  h.plans (Plant.Plans.setService n s y)

theorem setHandoff (h : Plant.Holds a q v t x y) (n : Fin 4) (s : Slot) : Plant.Holds a q v t x (y.setHandoff n s) :=
  h.plans (Plant.Plans.setHandoff n s y)

theorem requestRecovery (h : Plant.Holds a q v t x y) (r : Request) : Plant.Holds a q v t x (y.requestRecovery r) := by
  obtain ⟨h1, h2, -⟩ := Plant.requestRecovery_frame r y
  refine h.congr (Plant.acc_congr h2 a) ((Plant.vol?_congr (congrArg Ltu.volumes h1) q).trans h.vol) fun u _ => ?_
  exact congrArg (fun v : Vector (Option Task) 48 => v.get u) (Plant.requestRecovery_tasks r y)

end Plant.Holds

theorem Plant.blockedDone_task {e : Env} {a : Acc} {x : Plant} {t : TaskNo} {l : Leg} {dst : Location}
    (hleg : (x.acc a).leg = some l) (ho : l.owner = .task t) (hd : l.dst = some dst) :
    x.blockedDone e a = (x.halted e a).blockedTask e t l dst := by
  simp only [Plant.blockedDone, hleg, ho, hd]
  rfl

/-! ### The slots a task's record names, under a movement -/

section Slots
variable {e : Env} {t : TaskNo} {k : Task} {x : Plant} {w : Work} {src dst : Location}

/-- The slots of a task's record. -/
def Task.slots (k : Task) : Option (Fin 8) × Option (Fin 4) := (k.service, k.handoff)

theorem Plant.updTask_slots (x : Plant) {f : Task → Task} (hf : ∀ k, (f k).slots = k.slots) :
    ((x.updTask t f).task? t).map Task.slots = (x.task? t).map Task.slots := by
  rw [Plant.task?_updTask_same, Option.map_map]
  exact congrArg (Option.map · _) (funext hf)

theorem Plant.interim_slots (u : TaskNo) (st : Status) (x : Plant) :
    ((x.interim u st).task? t).map Task.slots = (x.task? t).map Task.slots := by
  rw [Plant.task?_congr (Plant.interim_frame u st x).2.1]

theorem Plant.enterWaiting_slots (r : WaitReason) (x : Plant) :
    ((x.enterWaiting t r).task? t).map Task.slots = (x.task? t).map Task.slots := by
  unfold Plant.enterWaiting
  split
  · split
    · exact Plant.updTask_slots x fun _ => rfl
    · split
      · rfl
      · exact (Plant.interim_slots t _ _).trans (Plant.updTask_slots x fun _ => rfl)
  · rfl

theorem Plant.enterMoving_slots (x : Plant) : ((x.enterMoving t).task? t).map Task.slots =
    (x.task? t).map Task.slots := by
  unfold Plant.enterMoving
  split
  · split
    · exact Plant.updTask_slots x fun _ => rfl
    · extract_lets y
      have hy : (y.task? t).map Task.slots = (x.task? t).map Task.slots := Plant.updTask_slots x fun _ => rfl
      split
      · exact hy
      · exact (Plant.interim_slots t _ y).trans hy
  · rfl

theorem Plant.legQueued_slots (l : Leg) (x : Plant) :
    ((x.legQueued t l).task? t).map Task.slots = (x.task? t).map Task.slots := by
  unfold Plant.legQueued
  split
  · exact Plant.enterWaiting_slots _ x
  · exact Plant.enterMoving_slots x

theorem Plant.queueTaskLeg_slots (dst onward : Option Location) (capA capB : Bool) :
    ((x.queueTaskLeg e t w src dst onward capA capB).task? t).map Task.slots = (x.task? t).map Task.slots := by
  unfold Plant.queueTaskLeg
  split
  · rfl
  · refine Eq.trans ?_ (Plant.updTask_slots (t := t) x (f := ({ · with work := some w, waiter := none })) fun _ => rfl)
    exact Plant.legQueued_slots _ _

theorem Plant.releaseHandoff_service (x : Plant) :
    ((x.releaseHandoff t).task? t).map (·.service) = (x.task? t).map (·.service) := by
  unfold Plant.releaseHandoff
  split
  · split
    · refine (congrArg (Option.map _) (Plant.task?_updTask_same t _ x)).trans ?_
      rw [Option.map_map]
      rfl
    · rfl
  · rfl

/-- A movement that one accessor can make leaves the task's service slot as it is. -/
theorem Plant.route_service (hc : capable .A src dst = true ∨ capable .B src dst = true) :
    ((x.route e t w src dst).task? t).map (·.service) = (x.task? t).map (·.service) := by
  unfold Plant.route
  rw [if_pos (by simpa using hc)]
  have h := Plant.queueTaskLeg_slots (e := e) (w := w) (src := src) (x := x.releaseHandoff t) (some dst) none
    (t := t) (capable .A src dst) (capable .B src dst)
  have h := congrArg (Option.map Prod.fst) h
  rw [Option.map_map, Option.map_map] at h
  exact h.trans (Plant.releaseHandoff_service x)

/-- A service slot taken for the task's reel. -/
def Plant.slotTaken (t : TaskNo) (n : Fin 8) (x : Plant) : Plant :=
  (x.setService n (Slot.reserve t)).updTask t ({ · with service := some n })

theorem Plant.secureService_taken {n : Fin 8} (hk : x.task? t = some k) (hs : k.service = none)
    (he : x.emptyService = some n) : x.secureService e t w = (x.slotTaken t n, some n) := by
  have hh : x.slotHeld t = none := by simp [Plant.slotHeld, hk, hs]
  simp only [Plant.secureService, hh, he]
  rfl

/-- A movement from a gripper to the service rack, where the task has no slot yet. -/
theorem Plant.moveFrom_slot {a : Acc} {n : Fin 8} (hw : w = .remove ∨ w = .ringPull ∨ w = .returnSlot)
    (hk : x.task? t = some k) (hs : k.service = none) (he : x.emptyService = some n) (m : Task) :
    (x.updTask t ({ · with work := some w, waiter := none, faulted := none })).moveFrom e t w m (.gripper a)
      = ((x.setOut t w (.gripper a)).slotTaken t n).route e t w (.gripper a) (.service n) := by
  have hsec : (x.setOut t w (.gripper a)).secureService e t w = ((x.setOut t w (.gripper a)).slotTaken t n, some n) :=
    Plant.secureService_taken (Plant.setOut_task hk) hs he
  have hsec' : ((x.updTask t ({ · with work := some w, waiter := none, faulted := none })).updTask t
      ({ · with holding := some a })).secureService e t w = ((x.setOut t w (.gripper a)).slotTaken t n, some n) := hsec
  unfold Plant.moveFrom
  obtain rfl | rfl | rfl := hw <;> simp only [hsec']

/-- The reel of a gripper goes to the service rack. -/
theorem Plant.planMove_slot {a : Acc} {n : Fin 8} {q : Serial} {v : Volume}
    (hw : w = .remove ∨ w = .ringPull ∨ w = .returnSlot) (hk : x.task? t = some k) (hs : k.service = none)
    (he : x.emptyService = some n) (hq : k.serial = some q) (hv : x.vol? q = some v) (hl : v.loc = .gripper a) :
    ∃ m, (x.planMove e t w).task? t = some m ∧ m.service = some n ∧ (x.planMove e t w).service n = Slot.reserve t
      ∧ (∀ i, i ≠ n → (x.planMove e t w).service i = x.service i)
      ∧ Plant.LegQueued t (.gripper a) (.service n) none (x.planMove e t w) := by
  have hcap := capable_gripper (within_service a n)
  have heq : x.planMove e t w = ((x.setOut t w (.gripper a)).slotTaken t n).route e t w (.gripper a) (.service n) := by
    have hfrom := Plant.planMove_from (e := e) (w := w) hk hq hv (by simp [hl]) (by simp [hl]) (by simp [hl])
    rw [hl] at hfrom
    exact hfrom.trans (Plant.moveFrom_slot hw hk hs he _)
  have htask : ((x.setOut t w (.gripper a)).slotTaken t n).task? t = some { k.setOut w (.gripper a) with service := some n } :=
    (Plant.task?_updTask_same t _ _).trans (congrArg (Option.map _) (Plant.setOut_task hk))
  have hltu := (Plant.route_frame e t w (.gripper a) (.service n) ((x.setOut t w (.gripper a)).slotTaken t n)).1
  have hsv := Plant.route_service (e := e) (w := w) (x := (x.setOut t w (.gripper a)).slotTaken t n) (t := t) hcap
  rw [htask] at hsv
  obtain ⟨m, hm, hms⟩ := Option.map_eq_some_iff.mp hsv
  rw [heq]
  refine ⟨m, hm, hms, ?_, fun i hi => ?_, Plant.route_queued htask hcap⟩
  · rw [Plant.service_congr (congrArg Ltu.service hltu)]
    exact Plant.service_setService_same n _ _
  · rw [Plant.service_congr (congrArg Ltu.service hltu)]
    exact Plant.service_setService_other (Ne.symm hi) _ _

end Slots

end Sys2Proof.Machine
end

section
/-!
SUPPORT. A service slot or a cell found taken (R59, R70).
-/
namespace Sys2Proof.Machine

/-! ### The blocked placement of a task's reel, by its destination (R70) -/

theorem Plant.emptyService_congr {x y : Plant} (h : ∀ n, (y.service n).state = .empty ↔ (x.service n).state = .empty) :
    y.emptyService = x.emptyService := by
  unfold Plant.emptyService
  congr 1
  funext n
  exact decide_eq_decide.mpr (h n)

theorem Plant.emptyHandoff_congr {x y : Plant} (h : ∀ n, (y.handoff n).state = .empty ↔ (x.handoff n).state = .empty) :
    y.emptyHandoff = x.emptyHandoff := by
  unfold Plant.emptyHandoff
  congr 1
  funext n
  exact decide_eq_decide.mpr (h n)

theorem Plant.emptyService_some {x : Plant} {n : Fin 8} (h : x.emptyService = some n) :
    (x.service n).state = .empty := by
  simpa using List.find?_some h

theorem Plant.emptyHandoff_some {x : Plant} {n : Fin 4} (h : x.emptyHandoff = some n) :
    (x.handoff n).state = .empty := by
  simpa using List.find?_some h

section Blocked
variable {e : Env} {a : Acc} {q : Serial} {v : Volume} {x : Plant} {l : Leg} {t : TaskNo} {k : Task}
  (hheld : e.held = false) (hg : (x.acc a).gripper = .known q) (hk : x.task? t = some k) (hs : k.serial = some q)
  (hv : x.vol? q = some v) (hl : v.loc = .gripper a)

theorem Plant.task?_halted (e : Env) (a : Acc) (x : Plant) (u : TaskNo) : (x.halted e a).task? u = x.task? u :=
  Plant.task?_congr (Plant.halted_frame e a x).2.1 u

theorem Plant.service_halted (e : Env) (a : Acc) (x : Plant) (n : Fin 8) : (x.halted e a).service n = x.service n :=
  Plant.service_congr (congrArg Ltu.service (Plant.halted_frame e a x).1) n

/-- The plant once a service slot has shown itself taken by another reel. -/
def Plant.slotLost (t : TaskNo) (n : Fin 8) (x : Plant) : Plant := x.blockedSlot t (.service n)

theorem Plant.slotLost_frame (t : TaskNo) (n : Fin 8) (x : Plant) :
    (∀ i, (x.slotLost t n).service i = if i = n then Slot.hold .unknown none else x.service i)
      ∧ (x.slotLost t n).dru = x.dru ∧ (x.slotLost t n).task? t = (x.task? t).map ({ · with service := none })
      ∧ Request.service n ∈ (x.slotLost t n).tcu.requests := by
  obtain ⟨h1, -, h3, -⟩ := Plant.requestRecovery_frame (.service n)
    ((x.setService n (Slot.hold .unknown none)).updTask t ({ · with service := none }))
  have htask := congrArg (fun v : Vector (Option Task) 48 => v.get t) (Plant.requestRecovery_tasks (.service n)
    ((x.setService n (Slot.hold .unknown none)).updTask t ({ · with service := none })))
  refine ⟨fun i => (Plant.service_congr (congrArg Ltu.service h1) i).trans ?_, h3,
    htask.trans (Plant.task?_updTask_same t _
        (x.setService n (Slot.hold .unknown none))), Plant.mem_requestRecovery _ _⟩
  split
  · rename_i hi; rw [hi]; exact Plant.service_setService_same n _ x
  · rename_i hi; exact Plant.service_setService_other (Ne.symm hi) _ x

include hheld hg hk hs hv hl in
/-- A service slot found taken: it holds an unknown reel, for which a RECOVERY task is requested, and another is taken. -/
theorem Plant.blocked_service {n n2 : Fin 8} (hn : (x.service n).state = .reserved) (he : x.emptyService = some n2)
    (hw : l.work = .remove ∨ l.work = .ringPull ∨ l.work = .returnSlot) :
    ∃ (y : Plant) (m : Task), (x.halted e a).blockedTask e t l (.service n) = y ∧ Plant.Holds a q v t x y
      ∧ y.task? t = some m ∧ y.service n = { state := .occupied, content := some .unknown, task := none }
      ∧ Request.service n ∈ y.tcu.requests ∧ y.service n2 = Slot.reserve t ∧ m.service = some n2
      ∧ Plant.LegQueued t (.gripper a) (.service n2) none y ∧ y.dru = x.dru := by
  have hkz := (Plant.task?_halted e a x t).trans hk
  obtain ⟨hslot, hdru, htask, hreq⟩ := Plant.slotLost_frame t n (x.halted e a)
  rw [hkz] at htask
  have heq : (x.halted e a).blockedTask e t l (.service n) = ((x.halted e a).slotLost t n).planMove e t l.work := by
    simp only [Plant.blockedTask, hkz]
    exact if_neg (by rcases hw with hw | hw | hw <;> simp [hw])
  have hholds : Plant.Holds a q v t x ((x.halted e a).slotLost t n) :=
    (((Plant.Holds.halted hheld hg hv).setService n _).updTask _).requestRecovery _
  have hn2 : n2 ≠ n := by rintro rfl; rw [Plant.emptyService_some he] at hn; cases hn
  have hempty : ((x.halted e a).slotLost t n).emptyService = some n2 := by
    rw [← he]
    refine Plant.emptyService_congr fun i => ?_
    rw [hslot, Plant.service_halted]
    split
    · rename_i hi; rw [hi, hn]; simp [Slot.hold]
    · rfl
  obtain ⟨m, hm, hms, hsv, hso, hleg⟩ := Plant.planMove_slot (e := e) (a := a) hw htask rfl hempty hs hholds.vol hl
  have plans := Plant.Plans.planMove (t := t) e l.work ((x.halted e a).slotLost t n)
  refine ⟨_, m, heq, hholds.plans plans, hm, ?_, plans.requests ▸ hreq, hsv, hms, hleg,
    plans.drives.trans (hdru.trans (Plant.halted_frame e a x).2.2.1)⟩
  rw [hso n (Ne.symm hn2), hslot, if_pos rfl]
  rfl

/-- The plant once a cell has shown itself taken by another reel. -/
def Plant.cellLost (t : TaskNo) (c : CellNo) (x : Plant) : Plant := x.blockedSlot t (.cell c)

theorem Plant.blockedTask_cell {c : CellNo} (hkz : x.task? t = some k) (hs : k.serial = some q) :
    x.blockedTask e t l (.cell c) = (x.cellLost t c).planFreeCell e t q := by
  simp only [Plant.blockedTask, hkz, hs]
  rfl

theorem Plant.cellLost_frame (t : TaskNo) (c : CellNo) (x : Plant) :
    (∀ d, ((x.cellLost t c).cell d).occ = if d = c then .suspect else (x.cell d).occ)
      ∧ (x.cellLost t c).dru = x.dru ∧ (x.cellLost t c).task? t = (x.task? t).map ({ · with cell := none })
      ∧ ∀ n, (x.cellLost t c).service n = x.service n := by
  obtain ⟨h1, -, h3, -, h5, -⟩ := Plant.setOcc_frame c .suspect x
  refine ⟨fun d => ?_, h3, ?_, fun n => Plant.service_congr h5 n⟩
  · change ((x.setOcc c .suspect).cell d).occ = _
    rw [Plant.cell_setOcc]
    split <;> rfl
  · refine (Plant.task?_updTask_same t _ (x.setOcc c .suspect)).trans ?_
    rw [Plant.task?_congr h1]

section
variable {c : CellNo} (ho : (x.cell c).occ = .reserved (some q) t)

include ho in
theorem Plant.freeCell_cellLost : ((x.halted e a).cellLost t c).freeCell = x.freeCell := by
  have h1 : ((x.halted e a).cellLost t c).freeCell = ((x.halted e a).setOcc c .suspect).freeCell := rfl
  rw [h1, Plant.freeCell_setOcc (by rw [Plant.cell_halted, ho]; simp) (by simp)]
  exact Plant.freeCell_congr fun d => by rw [Plant.cell_halted]

include hheld hg hv hl in
theorem Plant.cellLost_holds (c : CellNo) : Plant.Holds a q v t x ((x.halted e a).cellLost t c) :=
  ((Plant.Holds.halted hheld hg hv).setOcc hl c _).updTask _

include hheld hg hk hs hv hl ho in
/-- A cell found taken: it is SUSPECT, and the free-cell choice is reserved in its place. -/
theorem Plant.blocked_cell {c2 : CellNo} (hf : x.freeCell = some c2) :
    ∃ (y : Plant) (m : Task), (x.halted e a).blockedTask e t l (.cell c) = y ∧ Plant.Holds a q v t x y
      ∧ y.task? t = some m ∧ (y.cell c).occ = .suspect ∧ (y.cell c2).occ = .reserved (some q) t ∧ m.cell = some c2
      ∧ m.tags = addTag .misfiledReturn k.tags ∧ y.dru = x.dru := by
  have hkz := (Plant.task?_halted e a x t).trans hk
  obtain ⟨hocc, hdru, htask, -⟩ := Plant.cellLost_frame t c (x.halted e a)
  rw [hkz] at htask
  have hcc : c ≠ c2 := by rintro rfl; rw [(Plant.freeCell_some hf).2.1] at ho; cases ho
  have hfree := (Plant.freeCell_cellLost (e := e) (a := a) ho).trans hf
  have heq := Plant.blockedTask_cell (e := e) (l := l) (c := c) hkz hs
  simp only [Plant.planFreeCell, hfree] at heq
  have hholds : Plant.Holds a q v t x ((((x.halted e a).cellLost t c).reserveCell t q c2).tag t .misfiledReturn) :=
    (((Plant.cellLost_holds hheld hg hv hl c).setOcc hl c2 _).updTask _).updTask _
  have hbase : ((((x.halted e a).cellLost t c).reserveCell t q c2).tag t .misfiledReturn).task? t
      = some { k with cell := some c2, tags := addTag .misfiledReturn k.tags } := by
    refine (Plant.task?_updTask_same t _ _).trans ?_
    refine (congrArg (Option.map _) (Plant.task?_updTask_same t _ _)).trans ?_
    rw [Plant.task?_congr (Plant.setOcc_frame c2 _ _).1, htask]
    rfl
  have plans := Plant.Plans.planMove (t := t) e .store
    ((((x.halted e a).cellLost t c).reserveCell t q c2).tag t .misfiledReturn)
  obtain ⟨m, hm, hmf⟩ := plans.task hbase
  simp only [Task.fixed, Task.mk.injEq] at hmf
  have hcells := fun d => Plant.cell_congr (congrArg Records.cells plans.records) d
  have hcell : ∀ d, (((((x.halted e a).cellLost t c).reserveCell t q c2).tag t .misfiledReturn).cell d).occ
      = if d = c2 then .reserved (some q) t else (((x.halted e a).cellLost t c).cell d).occ := fun d => by
    change ((((x.halted e a).cellLost t c).setOcc c2 (.reserved (some q) t)).cell d).occ = _
    rw [Plant.cell_setOcc]
    split <;> rfl
  refine ⟨_, m, heq, hholds.plans plans, hm, ?_, ?_, by simp [hmf], by simp [hmf], plans.drives.trans
    ((Plant.setOcc_frame c2 (.reserved (some q) t) ((x.halted e a).cellLost t c)).2.2.1.trans
        (hdru.trans (Plant.halted_frame e a x).2.2.1))⟩
  · rw [hcells, hcell, if_neg hcc, hocc, if_pos rfl]
  · rw [hcells, hcell, if_pos rfl]

include hheld hg hk hs hv hl ho in
/-- A cell found taken, with no cell free: the reel goes to the service rack. -/
theorem Plant.blocked_cell_none {n : Fin 8} (hf : x.freeCell = none) (hsv : k.service = none)
    (he : x.emptyService = some n) :
    ∃ (y : Plant) (m : Task), (x.halted e a).blockedTask e t l (.cell c) = y ∧ Plant.Holds a q v t x y
      ∧ y.task? t = some m ∧ (y.cell c).occ = .suspect ∧ m.cell = none ∧ m.tags = k.tags
      ∧ y.service n = Slot.reserve t ∧ m.service = some n ∧ Plant.LegQueued t (.gripper a) (.service n) none y
      ∧ y.dru = x.dru := by
  have hkz := (Plant.task?_halted e a x t).trans hk
  obtain ⟨hocc, hdru, htask, hserv⟩ := Plant.cellLost_frame t c (x.halted e a)
  rw [hkz] at htask
  have hholds := Plant.cellLost_holds (t := t) hheld hg hv hl c
  have hfree := (Plant.freeCell_cellLost (e := e) (a := a) ho).trans hf
  have hreel : (((x.halted e a).cellLost t c).task? t).bind (fun k => ((x.halted e a).cellLost t c).reelAt k)
      = some (.gripper a) := by
    rw [htask]
    simp [Plant.reelAt, hs, hholds.vol, hl]
  have heq := Plant.blockedTask_cell (e := e) (l := l) (c := c) hkz hs
  simp only [Plant.planFreeCell, hfree, Plant.planRemove, hreel] at heq
  have hempty : ((x.halted e a).cellLost t c).emptyService = some n := by
    rw [← he]
    exact Plant.emptyService_congr fun i => by rw [hserv, Plant.service_halted]
  obtain ⟨m, hm, hms, hsv, -, hleg⟩ := Plant.planMove_slot (e := e) (a := a)
      (.inl rfl) htask hsv hempty hs hholds.vol hl
  have plans := Plant.Plans.planMove (t := t) e .remove ((x.halted e a).cellLost t c)
  obtain ⟨m', hm', hmf⟩ := plans.task htask
  obtain rfl : m = m' := Option.some.inj (hm.symm.trans hm')
  simp only [Task.fixed, Task.mk.injEq] at hmf
  refine ⟨_, m, heq, hholds.plans plans, hm, ?_, by simp [hmf], by simp [hmf], hsv, hms, hleg,
    plans.drives.trans (hdru.trans (Plant.halted_frame e a x).2.2.1)⟩
  rw [Plant.cell_congr (congrArg Records.cells plans.records), hocc, if_pos rfl]

end

end Blocked

end Sys2Proof.Machine
end

section
/-!
SUPPORT. A handoff slot found taken (R58, R70).
-/
namespace Sys2Proof.Machine

/-! ### A handoff slot found taken (R58, R70) -/

theorem Plant.dropLegs_handoff (e : Env) (t : TaskNo) (x : Plant) : (x.dropLegs e t).mou.handoff = x.mou.handoff := by
  unfold Plant.dropLegs
  refine (foldl_keeps (fun y : Plant => y.mou.handoff) (fun y a => ?_) _ _).trans rfl
  split
  · split
    · split
      · cases a <;> rfl
      · exact (Plant.endLeg_mou y).2
    · rfl
  · rfl

theorem Plant.enterWaiting_task {t : TaskNo} {k : Task} {x : Plant} (hk : x.task? t = some k) (r : WaitReason) :
    ∃ m, (x.enterWaiting t r).task? t = some m ∧ m.waiter = k.waiter ∧ m.handoff = k.handoff
      ∧ (k.state ≠ .demounting → m.state = .waiting ∧ m.wait = some r) := by
  simp only [Plant.enterWaiting, hk]
  split
  · rename_i h
    exact ⟨_, (Plant.task?_updTask_same t _ x).trans (congrArg (Option.map _) hk), rfl, rfl, fun g => absurd h g⟩
  · split
    · rename_i h; exact ⟨k, hk, rfl, rfl, fun _ => h⟩
    · exact ⟨_, (Plant.task?_congr (Plant.interim_frame t _ _).2.1 t).trans
        ((Plant.task?_updTask_same t _ x).trans (congrArg (Option.map _) hk)), rfl, rfl, fun _ => ⟨rfl, rfl⟩⟩

section Far
variable {e : Env} {t : TaskNo} {k : Task} {x : Plant} {w : Work} {src dst : Location}
  (hc : ∀ a, capable a src dst = false) (hk : x.task? t = some k) (hh : k.handoff = none)
include hc hk hh

/-- A movement beyond any accessor's reach goes through the lowest EMPTY handoff slot (R57). -/
theorem Plant.route_far {h : Fin 4} (he : x.emptyHandoff = some h) :
    ∃ m, (x.route e t w src dst).task? t = some m ∧ m.handoff = some h
      ∧ (x.route e t w src dst).handoff h = Slot.reserve t
      ∧ (∀ i, i ≠ h → (x.route e t w src dst).handoff i = x.handoff i)
      ∧ Plant.LegQueued t src (.handoff h) (some dst) (x.route e t w src dst) := by
  have heq : x.route e t w src dst = ((x.setHandoff h (Slot.reserve t)).updTask t
      ({ · with handoff := some h })).queueTaskLeg
      e t w src (some (.handoff h)) (some dst) (src.within .A) (src.within .B) := by
    simp [Plant.route, hc, hk, hh, he]
  have htask : ((x.setHandoff h (Slot.reserve t)).updTask t ({ · with handoff := some h })).task? t
      = some { k with handoff := some h } :=
    (Plant.task?_updTask_same t _ (x.setHandoff h (Slot.reserve t))).trans (congrArg (Option.map _) hk)
  have hslots := Plant.queueTaskLeg_slots (e := e) (w := w) (src := src) (t := t)
    (x := (x.setHandoff h (Slot.reserve t)).updTask t ({ · with handoff := some h })) (some (.handoff h)) (some dst)
    (src.within .A) (src.within .B)
  rw [htask] at hslots
  obtain ⟨m, hm, hms⟩ := Option.map_eq_some_iff.mp hslots
  have hhand := fun i => congrArg (fun v : Vector Slot 4 => v.get i) (Plant.queueTaskLeg_handoff (e := e) (t := t)
      (w := w)
    (src := src) (x := (x.setHandoff h (Slot.reserve t)).updTask t ({ · with handoff := some h })) (some (.handoff h))
    (some dst) (src.within .A) (src.within .B))
  rw [heq]
  exact ⟨m, hm, congrArg Prod.snd hms, (hhand h).trans (Plant.handoff_setHandoff_same h _ x),
    fun i hi => (hhand i).trans (Plant.handoff_setHandoff_other
        (Ne.symm hi) _ x), Plant.queueTaskLeg_queued htask _ _ _⟩

/-- With no handoff slot EMPTY the task waits for one (R58). -/
theorem Plant.route_waits (he : x.emptyHandoff = none) :
    ∃ m, (x.route e t w src dst).task? t = some m ∧ m.handoff = none ∧ m.waiter = some .handoff
      ∧ (k.state ≠ .demounting → m.state = .waiting ∧ m.wait = some .handoff)
      ∧ ∀ i, (x.route e t w src dst).handoff i = x.handoff i := by
  have heq : x.route e t w src dst = (x.becomeWaiter e t w .handoff).enterWaiting t .handoff := by
    simp [Plant.route, hc, hk, hh, he]
  have htask : (x.becomeWaiter e t w .handoff).task? t = some { k with work := some w, waiter := some .handoff } :=
    (Plant.task?_updTask_same t _ (x.supersede e t)).trans
      (congrArg (Option.map _) ((Plant.task?_congr (Plant.supersede_frame e t x).2.1 t).trans hk))
  obtain ⟨m, hm, h1, h2, h3⟩ := Plant.enterWaiting_task htask .handoff
  rw [heq]
  refine ⟨m, hm, h2.trans hh, h1, h3, fun i => ?_⟩
  refine (Plant.handoff_congr (Plant.enterWaiting_frame t .handoff (x.becomeWaiter e t w .handoff)).2.1 i).trans ?_
  exact congrArg (fun v : Vector Slot 4 => v.get i) (Plant.dropLegs_handoff e t x)

end Far

theorem Plant.Plans.setOut (t : TaskNo) (w : Work) (src : Location) (x : Plant) : Plant.Plans t x (x.setOut t w src) :=
  Plant.Plans.after (Plant.Plans.updTask t _ fun _ => rfl) (Plant.Plans.updTask t x fun _ => rfl)

/-- The plant once a handoff slot has shown itself taken by another reel. -/
def Plant.handLost (t : TaskNo) (h : Fin 4) (x : Plant) : Plant := x.blockedSlot t (.handoff h)

theorem Plant.handLost_frame (t : TaskNo) (h : Fin 4) (x : Plant) :
    (∀ i, (x.handLost t h).handoff i = if i = h then Slot.hold .unknown none else x.handoff i)
      ∧ (x.handLost t h).dru = x.dru ∧ (x.handLost t h).task? t = (x.task? t).map ({ · with handoff := none })
      ∧ Request.handoff h ∈ (x.handLost t h).tcu.requests := by
  obtain ⟨-, h2, h3, -⟩ := Plant.requestRecovery_frame (.handoff h)
    ((x.setHandoff h (Slot.hold .unknown none)).updTask t ({ · with handoff := none }))
  have htask := congrArg (fun v : Vector (Option Task) 48 => v.get t) (Plant.requestRecovery_tasks (.handoff h)
    ((x.setHandoff h (Slot.hold .unknown none)).updTask t ({ · with handoff := none })))
  refine ⟨fun i => (Plant.handoff_congr h2 i).trans ?_, h3,
    htask.trans (Plant.task?_updTask_same t _
        (x.setHandoff h (Slot.hold .unknown none))), Plant.mem_requestRecovery _ _⟩
  split
  · rename_i hi; rw [hi]; exact Plant.handoff_setHandoff_same h _ x
  · rename_i hi; exact Plant.handoff_setHandoff_other (Ne.symm hi) _ x

section Blocked
variable {e : Env} {a : Acc} {q : Serial} {v : Volume} {x : Plant} {l : Leg} {t : TaskNo} {k : Task}
  (hheld : e.held = false) (hg : (x.acc a).gripper = .known q) (hk : x.task? t = some k) (hs : k.serial = some q)
  (hv : x.vol? q = some v) (hl : v.loc = .gripper a)
include hheld hg hk hs hv hl

theorem Plant.blocked_handoff {h : Fin 4} {c : CellNo} (hn : (x.handoff h).state = .reserved) (hw : l.work = .store)
    (hc : k.cell = some c) (hfar : (Location.cell c).within a = false) (hp : k.pending = none) :
    ∃ (y : Plant) (m : Task), (x.halted e a).blockedTask e t l (.handoff h) = y ∧ Plant.Holds a q v t x y
      ∧ y.task? t = some m ∧ y.handoff h = { state := .occupied, content := some .unknown, task := none }
      ∧ Request.handoff h ∈ y.tcu.requests
      ∧ (∀ h2, x.emptyHandoff = some h2 → y.handoff h2 = Slot.reserve t ∧ m.handoff = some h2
          ∧ Plant.LegQueued t (.gripper a) (.handoff h2) (some (.cell c)) y)
      ∧ (x.emptyHandoff = none → m.handoff = none ∧ m.waiter = some .handoff
          ∧ (k.state ≠ .demounting → m.state = .waiting ∧ m.wait = some .handoff)) := by
  have hkz := (Plant.task?_halted e a x t).trans hk
  obtain ⟨hslot, -, htask, hreq⟩ := Plant.handLost_frame t h (x.halted e a)
  rw [hkz] at htask
  have hhalt : ∀ i, (x.halted e a).handoff i = x.handoff i := fun i =>
    congrArg (fun v : Vector Slot 4 => v.get i) (Plant.halted_frame e a x).2.2.2.2.2
  have hret : k.returns = false := by simp [Task.returns, hp]
  have hholds : Plant.Holds a q v t x ((x.halted e a).handLost t h) :=
    (((Plant.Holds.halted hheld hg hv).setHandoff h _).updTask _).requestRecovery _
  have hcap : ∀ b, capable b (.gripper a) (.cell c) = false := fun b => by
    simp only [capable, within_gripper]
    by_cases hb : a = b
    · rw [← hb, hfar]; simp
    · simp [hb]
  have heq : (x.halted e a).blockedTask e t l (.handoff h)
      = (((x.halted e a).handLost t h).setOut t .store (.gripper a)).route e t .store (.gripper a) (.cell c) := by
    have hplan : (x.halted e a).blockedTask e t l (.handoff h) = ((x.halted e a).handLost t h).planMove e t l.work := by
      simp only [Plant.blockedTask, hkz]
      exact if_neg (by simp [hret])
    have hfrom := Plant.planMove_from (e := e) (w := .store) htask hs hholds.vol (by simp [hl]) (by simp [hl])
        (by simp [hl])
    rw [hl] at hfrom
    rw [hplan, hw]
    exact hfrom.trans (Plant.moveFrom_store hc (by simp))
  have hset := Plant.setOut_task (w := .store) (src := .gripper a) htask
  have plans : Plant.Plans t ((x.halted e a).handLost t h)
      ((((x.halted e a).handLost t h).setOut t .store (.gripper a)).route e t .store (.gripper a) (.cell c)) :=
    (Plant.Plans.setOut t .store _ _).trans (Plant.Plans.route e .store _ _ _)
  have hempty : (((x.halted e a).handLost t h).setOut t .store (.gripper a)).emptyHandoff = x.emptyHandoff := by
    refine Plant.emptyHandoff_congr fun i => ?_
    change (((x.halted e a).handLost t h).handoff i).state = _ ↔ _
    rw [hslot, hhalt]
    split
    · rename_i hi; rw [hi, hn]; simp [Slot.hold]
    · rfl
  rw [heq]
  cases he : x.emptyHandoff with
  | some h2 =>
    obtain ⟨m, hm, hmh, hres, hoth, hleg⟩ := Plant.route_far (e := e) (w := .store) hcap hset rfl (hempty.trans he)
    have hh : h ≠ h2 := by rintro rfl; rw [Plant.emptyHandoff_some he] at hn; cases hn
    refine ⟨_, m, rfl, hholds.plans plans, hm, ?_, plans.requests ▸ hreq, fun h' g => ?_, fun g => by cases g⟩
    · rw [hoth h hh]
      exact (hslot h).trans (if_pos rfl)
    · obtain rfl := Option.some.inj g
      exact ⟨hres, hmh, hleg⟩
  | none =>
    obtain ⟨m, hm, hmh, hmw, hst, hoth⟩ := Plant.route_waits (e := e) (w := .store) hcap hset rfl (hempty.trans he)
    refine ⟨_, m, rfl, hholds.plans plans, hm, ?_, plans.requests ▸ hreq, fun _ g => ?_, fun _ => ⟨hmh, hmw, hst⟩⟩
    · rw [hoth h]
      exact (hslot h).trans (if_pos rfl)
    · cases g

end Blocked

end Sys2Proof.Machine
end

section
/-!
SUPPORT. The return of a task's reel from a gripper (R78).
-/
namespace Sys2Proof.Machine

/-! ### A drive found taken: the mount is given up and the reel returned (R70, R78) -/

/-- No task waits for a slot: there is nobody to offer one to. -/
theorem Plant.offerSlots_none {x : Plant} (h : ∀ u m, x.task? u = some m → m.waiter = none) (e : Env) :
    x.offerSlots e = x := by
  have hw : ∀ w, x.waiters w = [] := fun w => by
    refine List.filter_eq_nil_iff.mpr fun p hp => ?_
    obtain ⟨u, -, hu⟩ := List.mem_filterMap.mp hp
    obtain ⟨m, hm, rfl⟩ := Option.map_eq_some_iff.mp hu
    simp [h u m hm]
  simp [Plant.offerSlots, Plant.serveWaiters, hw, oldest]

theorem Plant.boundDrive_none {x : Plant} {t : TaskNo} (h : ∀ c, (x.drive c).bound ≠ some t) :
    x.boundDrive t = none := by
  simpa [Plant.boundDrive, List.find?_eq_none] using h

theorem Plant.boundDrive_some {x : Plant} {t : TaskNo} {d : DriveNo} (h : (x.drive d).bound = some t)
    (hu : ∀ c, (x.drive c).bound = some t → c = d) : x.boundDrive t = some d := by
  have hs : (x.boundDrive t).isSome = true :=
    List.find?_isSome.mpr ⟨d, List.mem_finRange d, by simpa using h⟩
  obtain ⟨c, hc⟩ := Option.isSome_iff_exists.mp hs
  rw [hc, hu c (by simpa using List.find?_some hc)]

section Tasks
variable {x : Plant} {t : TaskNo} {k : Task}

theorem Plant.releaseHandoff_task (hk : x.task? t = some k) : ∃ o, (x.releaseHandoff t).task? t = some
    { k with handoff := o } := by
  unfold Plant.releaseHandoff
  split
  · split
    · exact ⟨none, (Plant.task?_updTask_same t _ x).trans (congrArg (Option.map _) hk)⟩
    · exact ⟨_, hk⟩
  · exact ⟨_, hk⟩

theorem Plant.releaseService_task (hk : x.task? t = some k) : ∃ o, (x.releaseService t).task? t = some
    { k with service := o } := by
  unfold Plant.releaseService
  split
  · split
    · exact ⟨none, (Plant.task?_updTask_same t _ x).trans (congrArg (Option.map _) hk)⟩
    · exact ⟨_, hk⟩
  · exact ⟨_, hk⟩

end Tasks

/-- What a return from a gripper leaves: the reel there, the drives as they are, and the status that waits. -/
structure Plant.Returned (a : Acc) (q : Serial) (v : Volume) (t : TaskNo) (k : Task) (x y z : Plant) : Prop where
  holds : Plant.Holds a q v t x z
  drives : z.dru = y.dru
  pending : ∃ m, z.task? t = some m ∧ m.pending = k.pending

section Return
variable {e : Env} {a : Acc} {q : Serial} {v : Volume} {x y : Plant} {t : TaskNo} {k : Task}

/-- A movement planned from a step of the return. -/
theorem Plant.Returned.plans {z w : Plant} (h : Plant.Returned a q v t k x y z) (p : Plant.Plans t z w) :
    Plant.Returned a q v t k x y w := by
  obtain ⟨m, hm, hp⟩ := h.pending
  obtain ⟨m', hm', hf⟩ := p.task hm
  simp only [Task.fixed, Task.mk.injEq] at hf
  exact ⟨h.holds.plans p, p.drives.trans h.drives, m', hm', by simp [hf, hp]⟩

theorem Plant.Returned.updTask {z : Plant} (h : Plant.Returned a q v t k x y z) {f : Task → Task}
    (hf : ∀ m, (f m).pending = m.pending) : Plant.Returned a q v t k x y (z.updTask t f) := by
  obtain ⟨m, hm, hp⟩ := h.pending
  exact ⟨h.holds.updTask f, h.drives, f m, (Plant.task?_updTask_same t f z).trans (congrArg (Option.map _) hm),
      (hf m).trans hp⟩

theorem Plant.Returned.tag {z : Plant} (h : Plant.Returned a q v t k x y z) (c : CondTag) :
    Plant.Returned a q v t k x y (z.tag t c) := h.updTask fun _ => rfl

theorem Plant.Returned.planMove {z : Plant} (h : Plant.Returned a q v t k x y z) (w : Work) :
    Plant.Returned a q v t k x y (z.planMove e t w) := h.plans (Plant.Plans.planMove e w z)

theorem Plant.Returned.reserveCell {z : Plant} (h : Plant.Returned a q v t k x y z) (hl : v.loc = .gripper a)
    (r : Serial)
    (c : CellNo) : Plant.Returned a q v t k x y (z.reserveCell t r c) := by
  obtain ⟨htcu, -, hdru, -⟩ := Plant.setOcc_frame c (.reserved (some r) t) z
  obtain ⟨m, hm, hp⟩ := h.pending
  have hset : Plant.Returned a q v t k x y (z.setOcc c (.reserved (some r) t)) :=
    ⟨h.holds.setOcc hl c _, hdru.trans h.drives, m, (Plant.task?_congr htcu t).trans hm, hp⟩
  exact hset.updTask fun _ => rfl

section
variable (h : Plant.Holds a q v t x y) (hk : y.task? t = some k) (hs : k.serial = some q) (hl : v.loc = .gripper a)
include h hk hs hl

theorem Plant.planStore_returned : Plant.Returned a q v t k x y (y.planStore e t) := by
  have start : Plant.Returned a q v t k x y y := ⟨h, rfl, k, hk, rfl⟩
  have hvol : y.taskVol k = some v := by simp [Plant.taskVol, hs, h.vol]
  have hreel : y.reelAt k = some (.gripper a) := by simp [Plant.reelAt, hs, h.vol, hl]
  have remove : Plant.Returned a q v t k x y (y.planRemove e t) :=
    start.plans (Plant.Plans.planRemove e y hk fun n => by simp [hreel])
  unfold Plant.planStore
  simp only [hk, hvol]
  split
  · exact start.planMove _
  · split
    · exact remove
    · split
      · exact (start.reserveCell hl _ _).planMove _
      · unfold Plant.planFreeCell
        split
        · exact ((start.reserveCell hl _ _).tag _).planMove _
        · exact remove

theorem Plant.planReturn_returned : Plant.Returned a q v t k x y (y.planReturn e t) := by
  have start : Plant.Returned a q v t k x y y := ⟨h, rfl, k, hk, rfl⟩
  have hvol : y.taskVol k = some v := by simp [Plant.taskVol, hs, h.vol]
  have hreel : y.reelAt k = some (.gripper a) := by simp [Plant.reelAt, hs, h.vol, hl]
  have hdrive : ¬ y.onOtherDrive t k = true := by simp [Plant.onOtherDrive, hreel]
  unfold Plant.planReturn
  simp only [hk, hvol, if_neg hdrive, hl]
  split
  · exact start.planMove _
  · exact Plant.planStore_returned h hk hs hl

/-- The return of a reel that is in a gripper, by a task that rests on no prompt, where no task waits for a slot. -/
theorem Plant.turnBack_returned (hp : k.prompt = none) (hw : ∀ u m, y.task? u = some m → u ≠ t → m.waiter = none)
    (hb : ∀ c, (y.drive c).bound ≠ some t) : Plant.Returned a q v t k x y (y.turnBack e t) := by
  have start : Plant.Returned a q v t k x y y := ⟨h, rfl, k, hk, rfl⟩
  have hk1 : (y.updTask t ({ · with faulted := none, waiter := none, returning := true })).task? t
      = some { k with faulted := none, waiter := none, returning := true } :=
    (Plant.task?_updTask_same t _ y).trans (congrArg (Option.map _) hk)
  have h1 : Plant.Returned a q v t k x y (y.updTask t
      ({ · with faulted := none, waiter := none, returning := true })) :=
    start.updTask fun _ => rfl
  have hwith := Plant.withdrawOwn_none (e := e) hk1 hp
  obtain ⟨o, hk2⟩ := Plant.releaseHandoff_task hk1
  obtain ⟨p, hk3⟩ := Plant.releaseService_task hk2
  unfold Plant.turnBack
  extract_lets y1 z1 z2
  have hz1 : z1 = (y1.releaseHandoff t).releaseService t := by simp only [z1, y1, hwith]
  have hr : Plant.Returned a q v t k x y z1 := by
    rw [hz1]
    exact (h1.plans (Plant.Plans.releaseHandoff _)).plans (Plant.Plans.releaseService _)
  have hkz : z1.task? t = some { k with faulted := none, waiter := none, returning := true, handoff := o, service := p } := by
    rw [hz1]; exact hk3
  have hz2 : z2 = z1 := by
    simp only [z2]
    split
    · rfl
    · rw [Plant.unbindDrive, Plant.boundDrive_none]
      intro c
      rw [Plant.drive, hr.drives]
      exact hb c
  have hoff : z1.offerSlots e = z1 := Plant.offerSlots_none (fun u m hu => by
    by_cases hut : u = t
    · subst hut
      obtain rfl := Option.some.inj (hkz.symm.trans hu)
      rfl
    · refine hw u m ?_ hut
      rw [← hu, hr.holds.others u hut, h.others u hut]) e
  rw [hz2, hoff]
  have hret := Plant.planReturn_returned (e := e) hr.holds hkz hs hl
  exact ⟨hret.holds, hret.drives.trans hr.drives, hret.pending⟩

end

end Return

end Sys2Proof.Machine
end

section
/-!
PROOFS. PLACED and PLACE-BLOCKED (R65, R68, R70, R89, R120; O36).
-/
namespace Sys2Proof.Machine

section Blocked
variable {e : Env} {a : Acc} {q : Serial} {v : Volume} {x : Plant} {l : Leg} {t : TaskNo} {k : Task} {d : DriveNo}

/-- The drive whose placement was blocked, its binding cleared. -/
theorem Drive.blocked_unbind (r : Drive) : r.unbind.blocked.state = .faulted ∧ r.unbind.blocked.preFault = some .empty
    ∧ r.unbind.blocked.bound = none ∧ r.unbind.blocked.mountOpen = false := by
  refine ⟨rfl, rfl, ?_, ?_⟩
  all_goals
    simp only [Drive.blocked, Drive.unbind, Drive.emptied]
    (repeat' split) <;> rfl

/-- A task whose mount is given up: MECHANISM FAILED waits, or the status that waited already. -/
def Plant.failing (t : TaskNo) (k : Task) (x : Plant) : Plant :=
  x.updTask t ({ · with pending := k.pending.or (some .mechanismFailed) })

/-- The mount is given up at a drive that is blocked. -/
def Plant.unmounted (t : TaskNo) (k : Task) (d : DriveNo) (x : Plant) : Plant :=
  ((x.failing t k).updDrive d (·.unbind)).updDrive d (·.blocked)

/-- A blocked drive is FAULTED over EMPTY and the mount is given up: the task returns, its pending status kept. -/
theorem Plant.blocked_drive (hheld : e.held = false) (hg : (x.acc a).gripper = .known q) (hk : x.task? t = some k)
    (hs : k.serial = some q) (hv : x.vol? q = some v) (hl : v.loc = .gripper a) (hp : k.prompt = none)
    (hw : ∀ u m, x.task? u = some m → m.waiter = none) (hd : (x.drive d).bound = some t)
    (hu : ∀ c, (x.drive c).bound = some t → c = d) :
    ∃ (y : Plant) (m : Task), (x.halted e a).blockedTask e t l (.drive d) = y ∧ Plant.Holds a q v t x y
      ∧ y.task? t = some m ∧ m.pending = k.pending.or (some .mechanismFailed)
      ∧ y.drive d = (x.drive d).unbind.blocked ∧ ∀ c, c ≠ d → y.drive c = x.drive c := by
  have hkz := (Plant.task?_halted e a x t).trans hk
  have hdz : ∀ c, (x.halted e a).drive c = x.drive c := fun c =>
    congrArg (fun r : Dru => r.drives.get c) (Plant.halted_frame e a x).2.2.1
  have hk1 : ((x.halted e a).unmounted t k d).task? t = some { k with pending := k.pending.or (some .mechanismFailed) } :=
    (Plant.task?_updTask_same t _ (x.halted e a)).trans (congrArg (Option.map _) hkz)
  have hbound : ((x.halted e a).failing t k).boundDrive t = some d :=
    Plant.boundDrive_some ((congrArg Drive.bound (hdz d)).trans hd)
      fun c hc => hu c ((congrArg Drive.bound (hdz c)).symm.trans hc)
  have heq : (x.halted e a).blockedTask e t l (.drive d) = ((x.halted e a).unmounted t k d).turnBack e t := by
    have hunb : ((x.halted e a).failing t k).unbindDrive t = ((x.halted e a).failing t k).updDrive d (·.unbind) := by
      rw [Plant.unbindDrive, hbound]
    simp only [Plant.blockedTask, hkz]
    unfold Plant.failing at hunb
    rw [hunb]
    rfl
  have hyd : ((x.halted e a).unmounted t k d).drive d = (x.drive d).unbind.blocked := by
    rw [Plant.unmounted, Plant.drive_updDrive_same, Plant.drive_updDrive_same]
    exact congrArg (fun r : Drive => r.unbind.blocked) (hdz d)
  have hyo : ∀ c, c ≠ d → ((x.halted e a).unmounted t k d).drive c = x.drive c := fun c hc =>
    (Plant.drive_updDrive_other (Ne.symm hc) _ _).trans ((Plant.drive_updDrive_other (Ne.symm hc) _ _).trans (hdz c))
  have hy : Plant.Holds a q v t x ((x.halted e a).unmounted t k d) :=
    ((Plant.Holds.halted hheld hg hv).updTask ({ · with pending := k.pending.or (some .mechanismFailed) })).congr
      (by cases a <;> rfl) ((Plant.vol?_halted q).trans hv) fun _ _ => rfl
  have hret := Plant.turnBack_returned (e := e) hy (k := { k with pending := k.pending.or (some .mechanismFailed) })
    hk1 hs hl hp (fun u m hm hut => hw u m ((hy.others u hut).symm.trans hm)) (fun c hc => by
      by_cases hcd : c = d
      · rw [hcd, hyd, (Drive.blocked_unbind _).2.2.1] at hc
        cases hc
      · rw [hyo c hcd] at hc
        exact hcd (hu c hc))
  obtain ⟨m, hm, hmp⟩ := hret.pending
  have hdr := fun c => congrArg (fun r : Dru => r.drives.get c) hret.drives
  exact ⟨_, m, heq, hret.holds, hm, hmp, (hdr d).trans hyd, fun c hc => (hdr c).trans (hyo c hc)⟩

end Blocked

section Exec
variable {a : Acc} {f : InFlight} {b p : Nat} {q : Serial} {v : Volume} {t : TaskNo} {s : State} (hf : s.free)
  (hh : s.env.held = false) (hstep : (s.plant.acc a).step = some f) (hkind : f.kind = .place b p)
  (hv : s.plant.vol? q = some v)
include hf hh hstep hkind

include hv in
/-- A PLACED report whose reel has been set down. -/
theorem exec_placed_sets {y : Plant} {dst : Location} (hy : s.plant.placeDone s.env a = y)
    (ha : y.acc a = (s.plant.landed s.env a q dst).acc a) (ht : ∀ u, u ≠ t → y.task? u = s.plant.task? u) :
    exec (.placed a f.tag) s = .next { s with plant := y.settle s.env } ∧ (y.acc a).gripper = .empty
      ∧ (y.acc a).leg = none ∧ (y.acc a).step = none ∧ (y.acc a).state = .idle ∧ (y.acc a).viaEntry = false
      ∧ ∀ u, u ≠ t → y.task? u = s.plant.task? u := by
  obtain ⟨h1, h2, h3, h4, h5⟩ := Plant.acc_landed (x := s.plant) (a := a) hv dst hh
  rw [← ha] at h1 h2 h3 h4 h5
  exact ⟨hy ▸ exec_placed hf hstep hkind, h1, h2, h3, h4, h5, ht⟩

omit hh in
/-- A PLACE-BLOCKED report whose reel is in the gripper still. -/
theorem exec_placeBlocked_keeps {y : Plant} {m : Task} (hy : s.plant.blockedDone s.env a = y)
    (h : Plant.Holds a q v t s.plant y) (hm : y.task? t = some m) :
    exec (.placeBlocked a f.tag) s = .next { s with plant := y.settle s.env } ∧ (y.acc a).gripper = .known q
      ∧ (y.acc a).leg = none ∧ (y.acc a).step = none ∧ (y.acc a).state = .idle ∧ y.vol? q = some v
      ∧ y.task? t = some m ∧ ∀ u, u ≠ t → y.task? u = s.plant.task? u :=
  ⟨hy ▸ exec_placeBlocked hf hstep hkind, h.gripper, h.leg, h.step, h.idle, h.vol, hm, h.others⟩

end Exec

/-- Settles O36. -/
theorem placesSetTheReelDownOrKeepIt : Obligations.PlacesSetTheReelDownOrKeepIt := by
  refine ⟨fun a f b p l t k q v s hf hh hstep hkind hleg ho hg hk hs hv hl set hset =>
      ⟨fun d hd hw hp hr hn => ?_, fun c hd hw hb hp => ?_, fun n hd hroom hlat ht =>
          ⟨fun hw => ?_, fun hw hp hst => ?_⟩,
        fun h hd hp ht dst hw => ?_⟩,
    fun a f b p l t k q v s hf hh hstep hkind hleg ho hg hk hs hv hl hp hw kept hkept =>
      ⟨fun d hd hb hu _ => ?_, fun c hd hc hocc => ⟨fun c2 hf2 => ?_, fun n hf2 hsv he => ?_⟩,
        fun n n2 hd hn he hw => ?_, fun h c hd hn hw hc hfar hpend => ?_⟩,
    fun a f b p l t live g s hf hh hstep hkind hleg ho hg => ⟨fun c c2 hd hocc hf2 hg2 => ?_, fun n hd => ?_,
        fun c hd => ?_⟩⟩
  · subst hset
    obtain ⟨y, hy, hacc, hoth, hq, hr', hyd, hyo, htask, hout⟩ :=
      Plant.placed_drive (e := s.env) (a := a) hv hk hs hp hr hn hw (s.plant.acc a).viaEntry
    have hdone := (Plant.placeDone_task (e := s.env) hleg ho hd hg hv hl (by simp)).trans hy
    exact ⟨y, _, _, exec_placed_sets hf hh hstep hkind hv hdone hacc hoth, hq, rfl, hr', hyd, hyo, htask, rfl, hout⟩
  · subst hset
    obtain ⟨y, w, hy, hq, hloc, hbound, hmis, hpend, hocc, htask, hacc, hoth, hreq, hord⟩ :=
      Plant.placed_cell (e := s.env) (a := a) (c := c) (l := l) hv hb hh hk hp (s.plant.acc a).viaEntry
    have hdone := (Plant.placeDone_task_cell (e := s.env) hleg ho hd hg hv hl rfl).trans hy
    exact ⟨y, w, exec_placed_sets hf hh hstep hkind hv hdone hacc hoth, hq, hloc, hbound, hmis, hpend, hocc, htask,
      fun p g hr _ => hreq p g hr, hord⟩
  · subst hset
    obtain ⟨y, hy, hq, hslot, hacc, hdru, hoth, b, m, r, hm, hmf, hmp, hr, hrk, hro, hrp, hs1, hs2⟩ :=
      Plant.placed_remove (e := s.env) (a := a) hv hl hk hs ht hroom hlat hw (s.plant.acc a).viaEntry
    have hdone := (Plant.placeDone_task (e := s.env) hleg ho hd hg hv hl (by simp)).trans hy
    simp only [Task.fixed, Task.mk.injEq] at hmf
    exact ⟨y, _, m, r, exec_placed_sets hf hh hstep hkind hv hdone hacc hoth, hq, rfl, hslot, hr, hrk, hro, by rw [hrp],
      by rw [hrp], hm, hmp, by simp [hmf], hs1, hs2, hdru⟩
  · subst hset
    obtain ⟨y, hy, hq, hslot, hacc, hdru, hoth, m, r, hm, hmf, hmp, hr, hrk, hro, hrp, hs1, -⟩ :=
      Plant.placed_ring (e := s.env) (a := a) hv hl hk hs ht hroom hlat hw hp (s.plant.acc a).viaEntry
    have hdone := (Plant.placeDone_task (e := s.env) hleg ho hd hg hv hl (by simp)).trans hy
    simp only [Task.fixed, Task.mk.injEq] at hmf
    exact ⟨y, _, m, r, exec_placed_sets hf hh hstep hkind hv hdone hacc hoth, hq, rfl, hslot, hr, hrk, hro, by rw [hrp],
      by rw [hrp], by rw [hrp], hm, hmp, hs1 hst, by simp [hmf], hdru⟩
  · subst hset
    obtain ⟨y, hy, plans, ⟨g, hgq, hgo, hgs, hgd, -, hgp, hgt⟩, hslot⟩ :=
      Plant.placed_handoff (e := s.env) (a := a) hv hl hk hs hp ht hw (s.plant.acc a).viaEntry
    have hdone := (Plant.placeDone_task (e := s.env) hleg ho hd hg hv hl (by simp)).trans hy
    have hacc := plans.legless a (Plant.acc_landed (x := s.plant) (a := a) hv (.handoff h) hh).2.1
    have hoth := fun u hu => (plans.others u hu).trans (Plant.task?_landed s.env a q (.handoff h) s.plant u)
    have hq := (Plant.vol?_congr (congrArg Records.volumes plans.records) q).trans
      (Plant.vol?_landed (e := s.env) (a := a) hv (.handoff h))
    exact ⟨y, _, g, exec_placed_sets hf hh hstep hkind hv hdone hacc hoth, hq, rfl, hslot, hgq, hgo, hgs, hgd, hgp, hgt,
      plans.drives.trans (Plant.landed_frame s.env a q (.handoff h) s.plant).2.1⟩
  · subst hkept
    obtain ⟨y, m, hy, hh', hm, hmp, hyd, hyo⟩ := Plant.blocked_drive (l := l) hh hg hk hs hv hl hp hw hb hu
    have hdone := (Plant.blockedDone_task hleg ho hd).trans hy
    obtain ⟨h1, h2, h3, h4⟩ := Drive.blocked_unbind (s.plant.drive d)
    rw [← hyd] at h1 h2 h3 h4
    exact ⟨y, m, exec_placeBlocked_keeps hf hstep hkind hdone hh' hm, hmp, h1, h2, h3, h4, hyo⟩
  · subst hkept
    obtain ⟨y, m, hy, hh', hm, ho1, ho2, hmc, hmt, hdru⟩ := Plant.blocked_cell (l := l) hh hg hk hs hv hl hocc hf2
    exact ⟨y, m, exec_placeBlocked_keeps hf hstep hkind
        ((Plant.blockedDone_task hleg ho hd).trans hy) hh' hm, ho1, ho2, hmc,
      hmt, hdru⟩
  · subst hkept
    obtain ⟨y, m, hy, hh', hm, ho1, hmc, hmt, hsl, hms, ⟨g, hgq, hgo, hgs, hgd, -⟩, hdru⟩ :=
      Plant.blocked_cell_none (l := l) hh hg hk hs hv hl hocc hf2 hsv he
    exact ⟨y, m, g, exec_placeBlocked_keeps hf hstep hkind
        ((Plant.blockedDone_task hleg ho hd).trans hy) hh' hm, ho1, hmc,
      hmt, hsl, hms, hgq, hgo, hgs, hgd, hdru⟩
  · subst hkept
    obtain ⟨y, m, hy, hh', hm, hsl, hreq, hsl2, hms, ⟨g, hgq, hgo, hgs, hgd, -⟩, hdru⟩ :=
      Plant.blocked_service hh hg hk hs hv hl hn he (by tauto)
    exact ⟨y, m, g, exec_placeBlocked_keeps hf hstep hkind
        ((Plant.blockedDone_task hleg ho hd).trans hy) hh' hm, hsl, hreq,
      hsl2, hms, hgq, hgo, hgs, hgd, hdru⟩
  · subst hkept
    obtain ⟨y, m, hy, hh', hm, hsl, hreq, hsome, hnone⟩ := Plant.blocked_handoff hh hg hk hs hv hl hn hw hc hfar hpend
    refine ⟨y, m, exec_placeBlocked_keeps hf hstep hkind
        ((Plant.blockedDone_task hleg ho hd).trans hy) hh' hm, hsl, hreq,
      fun h2 he => ?_, hnone⟩
    obtain ⟨hs2, hmh, g, hgq, hgo, hgs, hgd, hgw, -⟩ := hsome h2 he
    exact ⟨hs2, hmh, g, hgq, hgo, hgs, hgd, hgw⟩
  · obtain ⟨r, u, hres⟩ := hocc
    have hcar : s.plant.Carries a g := by
      obtain hu | ⟨q, v, rfl, hk, hv, hl, -⟩ := hg
      · exact .inl hu
      · obtain h | ⟨q', v', hq', hv', hr⟩ := hg2
        · cases h
        · obtain rfl := Option.some.inj hq'
          obtain rfl := Option.some.inj (hv.symm.trans hv')
          exact .inr ⟨q, v, rfl, hk, hv, hl, hr⟩
    obtain ⟨y, hy, hb, hin, hout⟩ := Plant.blocked_carry (t := t) (live := live) (c := c) hh hcar (by simp [hres]) hf2
    have hdone := (Plant.blockedDone_found (e := s.env) hleg ho hd).trans hy
    refine ⟨y, hdone ▸ exec_placeBlocked hf hstep hkind, hb.gripper, hb.leg, hb.idle, hb.suspect, hb.drives, hin, hout⟩
  · have slot : ∀ y, s.plant.placeDone s.env a = y → Plant.CarriedToSlot a n g s.plant y → ∃ y : Plant,
        exec (.placed a f.tag) s = .next { s with plant := y.settle s.env }
        ∧ (y.acc a).gripper = .empty ∧ (y.acc a).leg = none ∧ (y.acc a).state = .idle
        ∧ (y.service n).state = .occupied ∧ (y.service n).task = none ∧ Request.service n ∈ y.tcu.requests
        ∧ (g = none → (y.service n).content = some .unknown)
        ∧ (∀ q, g = some q → (y.service n).content = some (.known q)
            ∧ (y.vol? q).map (fun v : Volume => v.loc) = some (.service n))
        ∧ y.tcu.tasks = s.plant.tcu.tasks ∧ y.dru = s.plant.dru := fun y hy h =>
      ⟨y, hy ▸ exec_placed hf hstep hkind, h.gripper, h.leg, h.idle, h.occupied, h.task, h.asked, h.unknown, h.known,
        h.tasks, h.drives⟩
    obtain ⟨rfl, hu⟩ | ⟨q, v, rfl, hk, hv, hl, hb⟩ := hg
    · exact slot _ (Plant.placeDone_found_unknown hleg ho hd hu) (Plant.carried_service_unknown hh n _)
    · exact slot _ (Plant.placeDone_found_known hleg ho hd hk hv hl) (Plant.carried_service_known hv hl hb hh n _)
  · obtain ⟨rfl, hu⟩ | ⟨q, v, rfl, hk, hv, hl, hb⟩ := hg
    · obtain ⟨htcu, hdru, h1, h2, h3⟩ := Plant.landedUnknown_frame (a := a) (x := s.plant) (dst := .cell c) hh
      have hdone : s.plant.placeDone s.env a = s.plant.landedUnknown s.env a (.cell c) :=
        Plant.placeDone_found_unknown hleg ho hd hu
      exact ⟨_, hdone ▸ exec_placed hf hstep hkind, h1, h2, h3, fun _ => ⟨Plant.landedUnknown_cell c, htcu⟩,
        nofun, hdru⟩
    · obtain ⟨y, hy, h1, h2, h3, hocc, hloc, hdru⟩ := Plant.carried_cell_known (e := s.env) hv hb hh c
        (s.plant.acc a).viaEntry
      have hdone := (Plant.placeDone_found_known (e := s.env) hleg ho hd hk hv hl).trans hy
      refine ⟨y, hdone ▸ exec_placed hf hstep hkind, h1, h2, h3, nofun, fun r h => ?_, hdru⟩
      obtain rfl := Option.some.inj h
      exact ⟨hocc, hloc⟩

end Sys2Proof.Machine
end

section
/-!
SUPPORT. What prompts and flags report on the links, and the wear of a volume at a close (R143, R144, R149, R183, R219).
-/
namespace Sys2Proof.Machine

/-! ### What a block reports on the links and in the event flags -/

/-- A frame of the C-link that tells a path something of the path itself (R55). -/
def CFrame.isPath : CFrame → Bool
  | .status _ none _ _ => true
  | _ => false

/-- A frame of the M-link that makes an accessor or a drive act. -/
def MFrame.moves : MFrame → Bool
  | .step .. | .drive .. => true
  | _ => false

/-- The frames made from one plant to another: `l` on the C-link, none of them to a path itself, and `m` on the M-link,
none of which moves anything. -/
structure Plant.Makes (x y : Plant) (l : List CFrame) (m : List MFrame) : Prop where
  onC : y.out.c = x.out.c ++ l
  onM : y.out.m = x.out.m ++ m
  orders : ∀ f ∈ l, f.isPath = false
  shows : ∀ f ∈ m, f.moves = false

theorem Plant.Makes.of_out {x y : Plant} (h : y.out = x.out) : Plant.Makes x y [] [] :=
  ⟨by simp [h], by simp [h], by simp, by simp⟩

theorem Plant.Makes.trans {x y z : Plant} {l k : List CFrame} {m n : List MFrame} (h : Plant.Makes x y l m)
    (g : Plant.Makes y z k n) : Plant.Makes x z (l ++ k) (m ++ n) where
  onC := by rw [g.onC, h.onC, List.append_assoc]
  onM := by rw [g.onM, h.onM, List.append_assoc]
  orders f hf := (List.mem_append.mp hf).elim (h.orders f) (g.orders f)
  shows f hf := (List.mem_append.mp hf).elim (h.shows f) (g.shows f)

theorem Plant.Makes.sendC (f : CFrame) (hf : f.isPath = false) (x : Plant) : Plant.Makes x (x.sendC f) [f] [] :=
  ⟨rfl, by simp, by simpa using hf, by simp⟩

theorem Plant.Makes.sendM (f : MFrame) (hf : f.moves = false) (x : Plant) : Plant.Makes x (x.sendM f) [] [f] :=
  ⟨by simp, rfl, by simp, by simpa using hf⟩

/-- What a prompt request or a flag of a close reports: frames that move nothing, and at most three of the event flags. -/
def Plant.Reports (x y : Plant) : Prop :=
  (∃ l m, Plant.Makes x y l m)
    ∧ (y.mgu.lib = x.mgu.lib ∧ y.mgu.ansA = x.mgu.ansA ∧ y.mgu.ansB = x.mgu.ansB)
    ∧ ∀ i, i ≠ EventFlag.acctReady.index → i ≠ EventFlag.accountSaturated.index → i ≠ EventFlag.promptBacklog.index →
      y.mgu.flags.get i = x.mgu.flags.get i

namespace Plant.Reports
variable {x y z : Plant}

theorem of_frame (hm : y.mgu = x.mgu) (ho : y.out = x.out) : Plant.Reports x y :=
  ⟨⟨[], [], Plant.Makes.of_out ho⟩, by rw [hm]; exact ⟨rfl, rfl, rfl⟩, fun i _ _ _ => by rw [hm]⟩

theorem refl (x : Plant) : Plant.Reports x x := of_frame rfl rfl

theorem trans (h : Plant.Reports x y) (g : Plant.Reports y z) : Plant.Reports x z := by
  obtain ⟨⟨l, m, hs⟩, ⟨hl, hA, hB⟩, hf⟩ := h
  obtain ⟨⟨k, n, gs⟩, ⟨gl, gA, gB⟩, gf⟩ := g
  exact ⟨⟨_, _, hs.trans gs⟩, ⟨gl.trans hl, gA.trans hA, gB.trans hB⟩,
    fun i h1 h2 h3 => (gf i h1 h2 h3).trans (hf i h1 h2 h3)⟩

theorem after (g : Plant.Reports y z) (h : Plant.Reports x y) : Plant.Reports x z := h.trans g

theorem sendC (f : CFrame) (hf : f.isPath = false) (x : Plant) : Plant.Reports x (x.sendC f) :=
  ⟨⟨_, _, Plant.Makes.sendC f hf x⟩, ⟨rfl, rfl, rfl⟩, fun _ _ _ _ => rfl⟩

theorem foldl {α : Type} {f : Plant → α → Plant} (hf : ∀ y a, Plant.Reports y (f y a)) (l : List α) (x : Plant) :
    Plant.Reports x (l.foldl f x) := by
  induction l generalizing x with
  | nil => exact refl x
  | cons a as ih => exact (hf x a).trans (ih _)

theorem setFlag {f : EventFlag} (hf : f = .acctReady ∨ f = .accountSaturated ∨ f = .promptBacklog) (e : Env)
    (x : Plant) :
    Plant.Reports x (x.setFlag e f) := by
  have stamped : Plant.Reports x { x with mgu := x.mgu.stamp f } := by
    refine ⟨⟨[], [], Plant.Makes.of_out rfl⟩, ⟨rfl, rfl, rfl⟩, fun i h1 h2 h3 => ?_⟩
    have hi : f.index ≠ i := by rcases hf with rfl | rfl | rfl <;> [exact h1.symm; exact h2.symm; exact h3.symm]
    exact get_vset_other x.mgu.flags hi _
  unfold Plant.setFlag
  extract_lets y
  split
  · exact stamped.trans (foldl (fun z p => sendC _ rfl z) _ y)
  · exact stamped

theorem judgeView (e : Env) (c : Console) (x : Plant) : Plant.Reports x (x.judgeView e c) := by
  unfold Plant.judgeView
  extract_lets v k
  split
  · exact refl x
  · have shown : Plant.Reports x (x.updCon c k) := by cases c <;> exact of_frame rfl rfl
    exact shown.trans ⟨⟨_, _, Plant.Makes.sendM _ rfl _⟩, ⟨rfl, rfl, rfl⟩, fun _ _ _ _ => rfl⟩

theorem judgeViews (e : Env) (x : Plant) : Plant.Reports x (x.judgeViews e) := by
  unfold Plant.judgeViews
  split
  · exact refl x
  · exact (judgeView e .one x).trans (judgeView e .two _)

theorem openPrompt (e : Env) (r : PromptRequest) (x : Plant) : Plant.Reports x (x.openPrompt e r) :=
  (judgeViews e _).after (of_frame rfl rfl)

theorem joinBacklog (e : Env) (r : PromptRequest) (x : Plant) : Plant.Reports x (x.joinBacklog e r) :=
  (judgeViews e _).after ((setFlag (.inr (.inr rfl)) e _).after (of_frame rfl rfl))

theorem place (e : Env) (r : PromptRequest) (x : Plant) : Plant.Reports x (x.place e r) := by
  unfold Plant.place
  extract_lets room
  split
  · exact openPrompt e r x
  · split
    · exact joinBacklog e r x
    · split
      · exact refl x
      · split
        · exact (joinBacklog e r _).after (of_frame rfl rfl)
        · exact refl x

theorem ask (e : Env) (k : PromptKind) (p : Params) (o : PromptOwner) (x : Plant) : Plant.Reports x
    (x.ask e k p o) := by
  unfold Plant.ask Plant.request
  dsimp only
  split
  · exact of_frame rfl rfl
  · exact (place e _ _).after (of_frame rfl rfl)

end Plant.Reports

/-! ### The wear of a volume at a close (R143, R183) -/

/-- A volume once its mount is closed without footage. -/
def Volume.closedAt (limit : Nat) (v : Volume) : Volume :=
  { v with mounts := satAdd 65535 v.mounts 1, footage := satAdd maxTotal v.footage 0,
           worn := v.worn || limitReached limit (satAdd 65535 v.mounts 1) }

/-- The tables but for the records of the volumes, and the serials of those. -/
def Ltu.fixed (l : Ltu) : Ltu × List Serial := ({ l with volumes := [] }, l.volumes.map (·.serial))

theorem Ltu.fixed_updVol {f : Volume → Volume} (hf : ∀ v, (f v).serial = v.serial) (s : Serial) (x : Plant) :
    (x.updVol s f).ltu.fixed = x.ltu.fixed := by
  refine Prod.ext rfl ?_
  change (x.ltu.volumes.map _).map _ = x.ltu.volumes.map _
  rw [List.map_map]
  refine List.map_congr_left fun v _ => ?_
  simp only [Function.comp]
  split
  · exact hf v
  · rfl

theorem Plant.judgeWorn_reports (e : Env) (s : Serial) (d : DriveNo) (reached : Volume → Bool) (x : Plant) :
    Plant.Reports x (x.judgeWorn e s d reached) ∧ (x.judgeWorn e s d reached).ltu.fixed = x.ltu.fixed
      ∧ ∀ q, (x.judgeWorn e s d reached).vol? q
        = if q = s then (x.vol? q).map (fun v => { v with worn := v.worn || reached v }) else x.vol? q := by
  unfold Plant.judgeWorn
  split
  · rename_i v hv
    split
    · rename_i hr
      obtain ⟨hr, hn⟩ := hr
      refine ⟨(Plant.Reports.ask e _ _ _ _).after (Plant.Reports.of_frame rfl rfl), ?_, fun q => ?_⟩
      · rw [(Plant.ask_frame ..).1]
        exact Ltu.fixed_updVol (f := ({ · with worn := true })) (fun _ => rfl) s x
      · rw [Plant.vol?_congr (congrArg Ltu.volumes (Plant.ask_frame ..).1),
          Plant.vol?_updVol (f := ({ · with worn := true })) (fun _ => rfl)]
        split
        · rename_i hq; subst hq; simp [hv, hr]
        · rfl
    · rename_i hr
      refine ⟨Plant.Reports.refl x, rfl, fun q => ?_⟩
      split
      · rename_i hq
        subst hq
        have : (v.worn || reached v) = v.worn := by
          cases hw : v.worn <;> simp [hw] at hr ⊢
          exact hr
        simp [hv, this]
      · rfl
  · rename_i hv
    refine ⟨Plant.Reports.refl x, rfl, fun q => ?_⟩
    split
    · rename_i hq; subst hq; rw [hv]; rfl
    · rfl

theorem Plant.wear_reports (e : Env) (s : Serial) (d : DriveNo) (x : Plant) :
    Plant.Reports x (x.wear e s d 0) ∧ (x.wear e s d 0).ltu.fixed = x.ltu.fixed
      ∧ ∀ q, (x.wear e s d 0).vol? q = if q = s then (x.vol? q).map
          (Volume.closedAt e.set.mountLimit) else x.vol? q := by
  unfold Plant.wear
  obtain ⟨hr, hf, hv⟩ := Plant.judgeWorn_reports e s d (fun v => limitReached e.set.mountLimit v.mounts)
    (x.updVol s fun v => { v with mounts := satAdd 65535 v.mounts 1, footage := satAdd maxTotal v.footage 0 })
  refine ⟨hr.after (Plant.Reports.of_frame rfl rfl), hf.trans (Ltu.fixed_updVol (f := fun v => { v with
    mounts := satAdd 65535 v.mounts 1, footage := satAdd maxTotal v.footage 0 }) (fun _ => rfl) s x), fun q => ?_⟩
  rw [hv, Plant.vol?_updVol
    (f := fun v => { v with mounts := satAdd 65535 v.mounts 1, footage := satAdd maxTotal v.footage 0 }) (fun _ => rfl)]
  split
  · rename_i hq
    rw [hq, Option.map_map]
    rfl
  · rfl

end Sys2Proof.Machine
end

section
/-!
SUPPORT. The close of a mount at a restart: its usage record, its account and its volume (R180-R188, R192).
-/
namespace Sys2Proof.Machine

/-! ### What a close of a task's mount writes (R180-R188) -/

/-- A close of a task's mount but for its drive and the volumes' counts: it reports, adds tags to the task's record, and
leaves the other tasks, the motion, the lists and the rest of the tables. -/
structure Plant.Closing (t : TaskNo) (x y : Plant) : Prop where
  reports : Plant.Reports x y
  tables : y.ltu.fixed = x.ltu.fixed
  motion : y.mou = x.mou
  audits : y.adu = x.adu
  others : ∀ u, u ≠ t → y.task? u = x.task? u
  own : ∀ k, x.task? t = some k →
    ∃ g, y.task? t = some { k with tags := g } ∧ ∀ i, k.tags.getLsbD i = true → g.getLsbD i = true

namespace Plant.Closing
variable {t : TaskNo} {x y z : Plant}

theorem of_frame (hr : Plant.Reports x y) (hf : y.ltu.fixed = x.ltu.fixed) (ht : y.tcu = x.tcu) (hm : y.mou = x.mou)
    (ha : y.adu = x.adu) : Plant.Closing t x y where
  reports := hr
  tables := hf
  motion := hm
  audits := ha
  others u _ := Plant.task?_congr ht u
  own k hk := ⟨k.tags, (Plant.task?_congr ht t).trans hk, fun _ h => h⟩

theorem refl (t : TaskNo) (x : Plant) : Plant.Closing t x x := of_frame (Plant.Reports.refl x) rfl rfl rfl rfl

theorem trans (h : Plant.Closing t x y) (g : Plant.Closing t y z) : Plant.Closing t x z where
  reports := h.reports.trans g.reports
  tables := g.tables.trans h.tables
  motion := g.motion.trans h.motion
  audits := g.audits.trans h.audits
  others u hu := (g.others u hu).trans (h.others u hu)
  own k hk := by
    obtain ⟨i, hi, hki⟩ := h.own k hk
    obtain ⟨j, hj, hij⟩ := g.own _ hi
    exact ⟨j, hj, fun n hn => hij n (hki n hn)⟩

theorem tag (t : TaskNo) (c : CondTag) (x : Plant) : Plant.Closing t x (x.tag t c) where
  reports := .of_frame rfl rfl
  tables := rfl
  motion := rfl
  audits := rfl
  others u hu := Plant.task?_updTask_other hu.symm _ x
  own k hk := ⟨addTag c k.tags, by rw [Plant.tag, Plant.task?_updTask_same, hk]; rfl, fun i hi => by simp [addTag, hi]⟩

theorem setFlag {f : EventFlag} (hf : f = .acctReady ∨ f = .accountSaturated ∨ f = .promptBacklog) (e : Env)
    (x : Plant) :
    Plant.Closing t x (x.setFlag e f) := by
  obtain ⟨hl, ht, hm, -, -, ha⟩ := Plant.setFlag_frame e f x
  exact of_frame (Plant.Reports.setFlag hf e x) (congrArg _ hl) ht hm ha

end Plant.Closing

/-- A drive whose open mount is closed without footage. -/
def Drive.closed (r : Drive) : Drive := { r.addFootage 0 with mountOpen := false }

/-- The usage record of a mount closed on a drive without an UNLOADED report, under the tags it ends with
    (R180, R185). -/
def Acu.usage (e : Env) (k : Task) (d : DriveNo) (g : BitVec 10) (a : Acu) : Usage :=
  let r := e.set.rates.get (a.accounts.get k.account.toFin).cls
  let m := k.mountedMinute.getD 0
  { seq := a.nextSeq, account := k.account, volume := k.serial.getD 0, drive := d, path := k.origin.path?,
    intent := k.intent, minute := m, occupancy := occupancyOf e k, footage := 0, blocksRead := 0, blocksWritten := 0,
    factor := shiftFactor e.set.shifts m, charge := charge r (shiftFactor e.set.shifts m)
        (occupancyOf e k) 0, tags := g }

/-- The accounts and the buffer after a record: its account is charged, and it is appended (R182, R185). -/
def Acu.charged (e : Env) (u : Usage) (a : Acu) : Acu :=
  let q := (a.accounts.get u.account.toFin).closed u.charge u.occupancy
  ({ a with accounts := vset a.accounts u.account.toFin q } : Acu).append e u

section Close
variable {e : Env} {t : TaskNo} {k : Task} {d : DriveNo} {a : Acu} {x : Plant}

theorem Plant.wear_frame (e : Env) (q : Serial) (d : DriveNo) (x : Plant) :
    (x.wear e q d 0).tcu = x.tcu ∧ (x.wear e q d 0).mou = x.mou ∧ (x.wear e q d 0).dru = x.dru
      ∧ (x.wear e q d 0).adu = x.adu := by
  unfold Plant.wear Plant.judgeWorn
  (repeat' split) <;> simp

/-- A close at a restart (R180-R188, R192). -/
theorem closeMount_closing (hk : x.task? t = some k) (ho : (x.drive d).mountOpen = true) :
    ∃ g, (∀ i, k.tags.getLsbD i = true → g.getLsbD i = true)
      ∧ (closeMount e t d ⟨0, 0, 0⟩ a x).1 = a.charged e (a.usage e k d g)
      ∧ Plant.Closing t x (closeMount e t d ⟨0, 0, 0⟩ a x).2
      ∧ (closeMount e t d ⟨0, 0, 0⟩ a x).2.dru = (x.updDrive d Drive.closed).dru
      ∧ ∀ q, (closeMount e t d ⟨0, 0, 0⟩ a x).2.vol? q
        = if k.serial = some q then (x.vol? q).map (Volume.closedAt e.set.mountLimit) else x.vol? q := by
  generalize hc : closeMount e t d ⟨0, 0, 0⟩ a x = p
  rw [closeMount, hk] at hc
  dsimp -zeta only at hc
  rw [ho, if_neg (by simp)] at hc
  extract_lets acct r occ m s c x1 a1 x2 x3 x4 u a2 at hc
  subst hc
  have h1 : Plant.Closing t x x1 ∧ x1.ltu = x.ltu ∧ x1.dru = x.dru := by
    simp only [x1]
    split
    · exact ⟨.tag t _ x, rfl, rfl⟩
    · exact ⟨.refl t x, rfl, rfl⟩
  have h2 : Plant.Closing t x1 x2 ∧ x2.ltu = x1.ltu ∧ x2.dru = x1.dru := by
    simp only [x2]
    split
    · exact ⟨(Plant.Closing.tag t _ x1).trans (.setFlag (.inr (.inl rfl)) e _), by simp, by simp⟩
    · exact ⟨.refl t x1, rfl, rfl⟩
  have h3 : Plant.Closing t x2 x3 ∧ x3.dru = x2.dru
      ∧ ∀ q, x3.vol? q = if k.serial = some q then (x2.vol? q).map
          (Volume.closedAt e.set.mountLimit) else x2.vol? q := by
    simp only [x3]
    split
    · rename_i v hv
      obtain ⟨hr, hf, hq⟩ := Plant.wear_reports e v d x2
      obtain ⟨ht, hm, hd, ha⟩ := Plant.wear_frame e v d x2
      refine ⟨.of_frame hr hf ht hm ha, hd, fun q => ?_⟩
      rw [hq, hv]
      simp [eq_comm]
    · rename_i hv
      exact ⟨.refl t x2, rfl, fun q => by simp [hv]⟩
  have h4 : Plant.Closing t x3 x4 ∧ x4.ltu = x3.ltu ∧ x4.dru = (x3.updDrive d Drive.closed).dru :=
    ⟨.of_frame (.of_frame rfl rfl) rfl rfl rfl rfl, rfl, rfl⟩
  have hx := ((h1.1.trans h2.1).trans h3.1).trans h4.1
  have hlast : Plant.Closing t x4 (if a2.buffer.length = e.set.trigger then x4.setFlag e .acctReady else x4)
      ∧ (if a2.buffer.length = e.set.trigger then x4.setFlag e .acctReady else x4).ltu = x4.ltu
      ∧ (if a2.buffer.length = e.set.trigger then x4.setFlag e .acctReady else x4).dru = x4.dru := by
    split
    · exact ⟨.setFlag (.inl rfl) e _, by simp, by simp⟩
    · exact ⟨.refl t x4, rfl, rfl⟩
  obtain ⟨hlast, hltu, hdru⟩ := hlast
  obtain ⟨g, hg, hkg⟩ := hx.own k hk
  refine ⟨g, hkg, ?_, hx.trans hlast, ?_, fun q => ?_⟩
  · have hu : u = a.usage e k d g := by simp only [u, hg]; rfl
    simp only [a2, hu]
    rfl
  · have hd : x3.dru = x.dru := h3.2.1.trans (h2.2.2.trans h1.2.2)
    rw [hdru, h4.2.2, Plant.updDrive_dru, Plant.updDrive_dru, hd, Plant.drive, hd]
    rfl
  · have hv : x2.vol? q = x.vol? q := Plant.vol?_congr (congrArg Ltu.volumes (h2.2.1.trans h1.2.1)) q
    rw [Plant.vol?_congr (congrArg Ltu.volumes (hltu.trans h4.2.1)) q, h3.2.2 q, hv]

end Close

/-! ### The accounts and the volumes after a number of closes -/

/-- What a usage record of a close at a restart holds (R180, R181, R185), for the classes of the accounts. -/
def Usage.closes (e : Env) (cls : Fin 256 → Fin 8) (c : TaskNo × Task × DriveNo) (u : Usage) : Prop :=
  u.account = c.2.1.account ∧ u.drive = c.2.2 ∧ (∀ q, c.2.1.serial = some q → u.volume = q)
    ∧ u.footage = 0 ∧ u.blocksRead = 0 ∧ u.blocksWritten = 0
    ∧ (∀ at_, c.2.1.mountedTick = some at_ → u.occupancy = min 4294967295 (e.tick - at_).toNat)
    ∧ (∀ n, c.2.1.mountedMinute = some n → u.minute = n ∧ u.factor = shiftFactor e.set.shifts n)
    ∧ (∀ r, r = e.set.rates.get (cls c.2.1.account.toFin) →
        u.charge = min 16777215 (((r.fee + (u.occupancy + r.granule - 1) / r.granule * r.price) * u.factor + 8) / 16))
    ∧ u.tags.getLsbD CondTag.restartClosed.bit = true

theorem Acu.usage_closes (e : Env) (a : Acu) (t : TaskNo) (k : Task) (d : DriveNo) {g : BitVec 10}
    (hg : g.getLsbD CondTag.restartClosed.bit = true) :
    Usage.closes e (fun i => (a.accounts.get i).cls) (t, k, d) (a.usage e k d g) := by
  refine ⟨rfl, rfl, fun q hq => ?_, rfl, rfl, rfl, fun i hi => ?_, fun n hn => ?_, fun r hr => ?_, hg⟩
  · simp only at hq; simp [Acu.usage, hq]
  · simp only at hi; simp [Acu.usage, occupancyOf, hi, maxTotal, elapsed]
  · simp only at hn; simp [Acu.usage, hn]
  · subst hr; simp [Acu.usage, charge, exactCharge, maxCharge]

/-- An account after a number of records charged to it, in their order. -/
def Account.closedBy (q : Account) (us : List Usage) : Account := us.foldl (fun q u => q.closed u.charge u.occupancy) q

theorem Account.closedBy_cls (q : Account) (us : List Usage) : (q.closedBy us).cls = q.cls :=
  foldl_keeps Account.cls (f := fun q (u : Usage) => q.closed u.charge u.occupancy) (fun _ _ => rfl) us q

/-- The saturated sums of an account charged at least once. -/
theorem Account.closedBy_sums (q : Account) {us : List Usage} (h : us ≠ []) :
    (q.closedBy us).total = min 4294967295 (q.total + (us.map fun u => u.charge).sum)
      ∧ (q.closedBy us).mounts = min 65535 (q.mounts + us.length)
      ∧ (q.closedBy us).occupancy = min 4294967295 (q.occupancy + (us.map fun u => u.occupancy).sum) := by
  induction us generalizing q with
  | nil => exact absurd rfl h
  | cons u us ih =>
    have hstep : q.closedBy (u :: us) = (q.closed u.charge u.occupancy).closedBy us := rfl
    by_cases hus : us = []
    · subst hus
      simp [Account.closedBy, Account.closed, satAdd, maxTotal]
    · obtain ⟨ht, hm, ho⟩ := ih (q.closed u.charge u.occupancy) hus
      rw [hstep, ht, hm, ho]
      simp only [Account.closed, satAdd, maxTotal, List.map_cons, List.sum_cons, List.length_cons]
      refine ⟨?_, ?_, ?_⟩ <;> omega

/-- The closes `cs` with their records `us`, from the accounts and the plant before to those after (R180-R188). -/
structure Closes (e : Env) (cs : List (TaskNo × Task × DriveNo)) (us : List Usage) (a b : Acu)
    (x y : Plant) : Prop where
  buffer : b.buffer = a.buffer ++ us
  usages : List.Forall₂ (Usage.closes e fun i => (a.accounts.get i).cls) cs us
  accounts : ∀ i, b.accounts.get i = (a.accounts.get i).closedBy (us.filter fun u => u.account.toFin = i)
  volumes : ∀ q, y.vol? q
    = (x.vol? q).map (Volume.closedAt e.set.mountLimit)^[(cs.filter fun c => c.2.1.serial = some q).length]

theorem Closes.of_vol {e : Env} {a : Acu} {x y : Plant} (h : ∀ q, y.vol? q = x.vol? q) : Closes e [] [] a a x y :=
  ⟨by simp, .nil, fun _ => rfl, fun q => by simp [h]⟩

theorem Closes.trans {e : Env} {cs ds : List (TaskNo × Task × DriveNo)} {us vs : List Usage} {a b c : Acu}
    {x y z : Plant}
    (h : Closes e cs us a b x y) (g : Closes e ds vs b c y z) : Closes e (cs ++ ds) (us ++ vs) a c x z where
  buffer := by rw [g.buffer, h.buffer, List.append_assoc]
  usages := by
    have hcls : (fun i => (b.accounts.get i).cls) = fun i => (a.accounts.get i).cls :=
      funext fun i => by rw [h.accounts, Account.closedBy_cls]
    exact List.rel_append h.usages (hcls ▸ g.usages)
  accounts i := by rw [g.accounts, h.accounts, List.filter_append, Account.closedBy, Account.closedBy, Account.closedBy,
    List.foldl_append]
  volumes q := by rw [g.volumes, h.volumes, Option.map_map, ← Function.iterate_add, List.filter_append,
    List.length_append, Nat.add_comm]

/-- One record charged. -/
theorem Closes.single {e : Env} {t : TaskNo} {k : Task} {d : DriveNo} {g : BitVec 10} {a : Acu} {x y : Plant}
    (hg : g.getLsbD CondTag.restartClosed.bit = true)
    (hv : ∀ q, y.vol? q = if k.serial = some q then (x.vol? q).map (Volume.closedAt e.set.mountLimit) else x.vol? q) :
    Closes e [(t, k, d)] [a.usage e k d g] a (a.charged e (a.usage e k d g)) x y where
  buffer := rfl
  usages := .cons (Acu.usage_closes e a t k d hg) .nil
  accounts i := by
    have hc : (a.charged e (a.usage e k d g)).accounts = vset a.accounts k.account.toFin
        ((a.accounts.get k.account.toFin).closed (a.usage e k d g).charge (a.usage e k d g).occupancy) := rfl
    have hu : (a.usage e k d g).account = k.account := rfl
    rw [hc, List.filter_singleton, hu]
    by_cases hi : k.account.toFin = i
    · subst hi; simp [Account.closedBy]
    · rw [get_vset_other _ hi]; simp [Account.closedBy, hi]
  volumes q := by
    rw [hv, List.filter_singleton]
    by_cases hq : k.serial = some q
    · simp [hq]
    · simp [hq]

end Sys2Proof.Machine
end

section
/-!
SUPPORT. The end of a task at a restart, and the mounts that a restart closes (R54, R192).
-/
namespace Sys2Proof.Machine

/-! ### A task ends at a restart (R54, R192) -/

/-- The final status of a task's order at a restart (R54). -/
def Task.finalFrames (k : Task) : List CFrame :=
  match k.origin with
  | .path p g => if k.answered then [] else [.status p (some g) .last (.ended .libraryRestarted k.tags)]
  | _ => []

/-- The final status of the dismount that a task was asked for, at a restart (R54). -/
def Task.requesterFrames (k : Task) : List CFrame :=
  match k.requester with
  | some (p, g) => [.status p (some g) .last (.dismountEnded .libraryRestarted (k.drive.getD 0))]
  | none => []

/-- The ending of a task's record, its order told of `g`. -/
def Plant.endRestarted (t : TaskNo) (g : BitVec 10) (x : Plant) : Plant :=
  ((x.answer t (.ended .libraryRestarted g)).answerRequester t (some .libraryRestarted)).putTask t none

section End
variable {t : TaskNo} {k : Task} {x : Plant}

theorem Plant.endRestarted_frame (t : TaskNo) (g : BitVec 10) (x : Plant) :
    (x.endRestarted t g).ltu = x.ltu ∧ (x.endRestarted t g).mou = x.mou ∧ (x.endRestarted t g).dru = x.dru
      ∧ (x.endRestarted t g).adu = x.adu ∧ (x.endRestarted t g).mgu = x.mgu := by
  simp [Plant.endRestarted]

theorem Plant.task?_endRestarted (g : BitVec 10) (u : TaskNo) :
    (x.endRestarted t g).task? u = if u = t then none else x.task? u := by
  split
  · rename_i hu; rw [hu]; exact Plant.task?_putTask_same ..
  · rename_i hu
    have hu := Ne.symm hu
    have h1 : ∀ (st : Status) (y : Plant), (y.answer t st).task? u = y.task? u := fun st y => by
      unfold Plant.answer
      (repeat' split) <;> first | rfl | exact Plant.task?_updTask_other hu _ y
    have h2 : ∀ (f : Option Final) (y : Plant), (y.answerRequester t f).task? u = y.task? u := fun f y => by
      unfold Plant.answerRequester
      (repeat' split) <;> first | rfl | exact Plant.task?_updTask_other hu _ y
    rw [Plant.endRestarted, Plant.task?_putTask_other hu, h2, h1]

theorem Plant.answer_makes {m : Task} (h : x.task? t = some m) (hk : m.origin = k.origin)
    (ha : m.answered = k.answered) :
    Plant.Makes x (x.answer t (.ended .libraryRestarted k.tags)) k.finalFrames []
      ∧ ∃ b, (x.answer t (.ended .libraryRestarted k.tags)).task? t = some { m with answered := b } := by
  have silent (hx : x.answer t (.ended .libraryRestarted k.tags) = x) (hf : k.finalFrames = []) :
      Plant.Makes x (x.answer t (.ended .libraryRestarted k.tags)) k.finalFrames []
        ∧ ∃ b, (x.answer t (.ended .libraryRestarted k.tags)).task? t = some { m with answered := b } := by
    rw [hx, hf]
    exact ⟨.of_out rfl, _, h⟩
  cases ho : k.origin with
  | path p g =>
    cases hb : k.answered with
    | true => exact silent (by simp [Plant.answer, h, hk, ha, ho, hb]) (by simp [Task.finalFrames, ho, hb])
    | false =>
      have hx : x.answer t (.ended .libraryRestarted k.tags) = (x.updTask t ({ · with answered := true })).sendC
          (.status p (some g) .last (.ended .libraryRestarted k.tags)) := by
        simp [Plant.answer, Plant.status, h, hk, ha, ho, hb]
      have hf : k.finalFrames = [.status p (some g) .last (.ended .libraryRestarted k.tags)] := by
        simp [Task.finalFrames, ho, hb]
      rw [hx, hf]
      refine ⟨⟨rfl, by simp, by simp [CFrame.isPath], by simp⟩, true, ?_⟩
      exact (Plant.task?_updTask_same t _ x).trans (congrArg (Option.map _) h)
  | _ => exact silent (by simp [Plant.answer, h, hk, ho]) (by simp [Task.finalFrames, ho])

/-- What the end of a task makes; its tags may have changed since the status was made up (R54). -/
theorem Plant.endRestarted_makes {j : BitVec 10} (h : x.task? t = some { k with tags := j }) :
    Plant.Makes x (x.endRestarted t k.tags) (k.finalFrames ++ k.requesterFrames) [] := by
  obtain ⟨hm, b, hb⟩ := Plant.answer_makes (k := k) h rfl rfl
  refine hm.trans (n := []) ?_
  rw [Plant.endRestarted]
  generalize x.answer t (.ended .libraryRestarted k.tags) = y at hb
  cases hr : k.requester with
  | none =>
    have hy : y.answerRequester t (some .libraryRestarted) = y := by simp [Plant.answerRequester, hb, hr]
    have hk : k.requesterFrames = [] := by simp [Task.requesterFrames, hr]
    rw [hy, hk]
    exact .of_out rfl
  | some w =>
    have hy : y.answerRequester t (some .libraryRestarted) = (y.updTask t ({ · with requester := none })).sendC
        (.status w.1 (some w.2) .last (.dismountEnded .libraryRestarted (k.drive.getD 0))) := by
      simp [Plant.answerRequester, Plant.status, dismountStatus, hb, hr]
    have hk : k.requesterFrames = [.status w.1 (some w.2) .last
        (.dismountEnded .libraryRestarted (k.drive.getD 0))] := by
      simp [Task.requesterFrames, hr]
    rw [hy, hk]
    exact ⟨rfl, by simp, by simp [CFrame.isPath], by simp⟩

end End

/-! ### The tasks of a list end -/

/-- What a restart leaves of a plant once the tasks of `L` have ended (R54). -/
structure Plant.Ended (L : List TaskNo) (x y : Plant) : Prop where
  made : ∃ l m, Plant.Makes x y l m ∧ ∀ t ∈ L, ∀ k, x.task? t = some k → k.finalFrames ++ k.requesterFrames ⊆ l
  library : y.mgu.lib = x.mgu.lib ∧ y.mgu.ansA = x.mgu.ansA ∧ y.mgu.ansB = x.mgu.ansB
  flags : ∀ i, i ≠ EventFlag.acctReady.index → i ≠ EventFlag.accountSaturated.index →
    i ≠ EventFlag.promptBacklog.index → y.mgu.flags.get i = x.mgu.flags.get i
  tables : y.ltu.fixed = x.ltu.fixed
  motion : y.mou = x.mou
  audits : y.adu = x.adu
  tasks : ∀ u, y.task? u = if u ∈ L then none else x.task? u
  drives : ∀ d, ∃ f b, y.drive d = { x.drive d with footage := f, mountOpen := b }
    ∧ ((x.drive d).footage ≤ 4294967295 → f = (x.drive d).footage)
  unbound : ∀ d, (∀ t ∈ L, (x.drive d).bound ≠ some t) → y.drive d = x.drive d

theorem Plant.Ended.nil (x : Plant) : Plant.Ended [] x x where
  made := ⟨[], [], .of_out rfl, by simp⟩
  library := ⟨rfl, rfl, rfl⟩
  flags _ _ _ _ := rfl
  tables := rfl
  motion := rfl
  audits := rfl
  tasks u := by simp
  drives d := ⟨_, _, rfl, fun _ => rfl⟩
  unbound _ _ := rfl

theorem Plant.Ended.trans {K L : List TaskNo} {x y z : Plant} (h : Plant.Ended K x y) (g : Plant.Ended L y z)
    (hd : K.Disjoint L) : Plant.Ended (K ++ L) x z where
  made := by
    obtain ⟨l, m, hm, hl⟩ := h.made
    obtain ⟨l2, m2, gm, gl⟩ := g.made
    refine ⟨_, _, hm.trans gm, fun t ht k hk => ?_⟩
    rcases List.mem_append.mp ht with ht | ht
    · exact fun f hf => List.mem_append_left _ (hl t ht k hk hf)
    · have hy : y.task? t = some k := by rw [h.tasks, if_neg fun hK => hd hK ht, hk]
      exact fun f hf => List.mem_append_right _ (gl t ht k hy hf)
  library := ⟨g.library.1.trans h.library.1, g.library.2.1.trans h.library.2.1, g.library.2.2.trans h.library.2.2⟩
  flags i h1 h2 h3 := (g.flags i h1 h2 h3).trans (h.flags i h1 h2 h3)
  tables := g.tables.trans h.tables
  motion := g.motion.trans h.motion
  audits := g.audits.trans h.audits
  tasks u := by
    rw [g.tasks, h.tasks]
    by_cases hK : u ∈ K <;> by_cases hL : u ∈ L <;> simp [hK, hL]
  drives d := by
    obtain ⟨f, b, hf, hfx⟩ := h.drives d
    obtain ⟨f2, b2, gf, gfx⟩ := g.drives d
    refine ⟨f2, b2, by rw [gf, hf], fun hx => ?_⟩
    have hy : (y.drive d).footage = (x.drive d).footage := by rw [hf]; exact hfx hx
    rw [gfx (hy ▸ hx), hy]
  unbound d hb := by
    have hy := h.unbound d fun t ht => hb t (List.mem_append_left _ ht)
    rw [g.unbound d fun t ht => hy ▸ hb t (List.mem_append_right _ ht), hy]

/-! ### The close of a task's mount -/

/-- The mount that a restart closes for a task: the task, and the drive it stands open on (R192). -/
def Plant.closeOf (t : TaskNo) (x : Plant) : Option (TaskNo × Task × DriveNo) :=
  match x.task? t, x.boundDrive t with
  | some k, some d => if k.closesAtRestart && (x.drive d).mountOpen then some (t, k, d) else none
  | _, _ => none

theorem Plant.boundDrive_iff {x : Plant} {t : TaskNo} {d : DriveNo} :
    x.boundDrive t = some d ↔ (x.drive d).bound = some t ∧ ∀ c, c < d → (x.drive c).bound ≠ some t := by
  unfold Plant.boundDrive
  rw [List.find?_eq_some_iff_getElem]
  constructor
  · rintro ⟨hb, i, hi, hd, hc⟩
    obtain rfl : i = d.val := by simp [← hd]
    refine ⟨by simpa using hb, fun c hcd => ?_⟩
    simpa using hc c.val hcd
  · rintro ⟨hb, hc⟩
    refine ⟨by simpa using hb, d.val, by simp, by simp, fun j hj => ?_⟩
    have := hc ⟨j, by omega⟩ hj
    simpa using this

theorem Plant.closeOf_some {x : Plant} {t : TaskNo} {c : TaskNo × Task × DriveNo} :
    x.closeOf t = some c ↔ c.1 = t ∧ x.task? c.1 = some c.2.1
      ∧ (c.2.1.state = .mounted ∨ (c.2.1.state = .unloading ∧ c.2.1.pending = none))
      ∧ (x.drive c.2.2).bound = some c.1 ∧ (∀ e, e < c.2.2 → (x.drive e).bound ≠ some c.1)
      ∧ (x.drive c.2.2).mountOpen = true := by
  obtain ⟨u, k, d⟩ := c
  have hk : k.closesAtRestart = true ↔ k.state = .mounted ∨ (k.state = .unloading ∧ k.pending = none) := by
    simp [Task.closesAtRestart]
  constructor
  · intro h
    unfold Plant.closeOf at h
    split at h
    · rename_i m b hm hb
      split at h
      · rename_i hc
        obtain ⟨hc, ho⟩ := Bool.and_eq_true_iff.mp hc
        obtain ⟨rfl, rfl, rfl⟩ : t = u ∧ m = k ∧ b = d := by simpa using h
        obtain ⟨hb, hlt⟩ := Plant.boundDrive_iff.mp hb
        exact ⟨rfl, hm, hk.mp hc, hb, hlt, ho⟩
      · cases h
    · cases h
  · rintro ⟨rfl, ht, hs, hb, hlt, ho⟩
    simp only at ht hs hb hlt ho
    simp [Plant.closeOf, ht, Plant.boundDrive_iff.mpr ⟨hb, hlt⟩, hk.mpr hs, ho]

theorem Plant.closeOf_congr {x y : Plant} {t : TaskNo} (ht : y.task? t = x.task? t)
    (hb : ∀ d, (y.drive d).bound = (x.drive d).bound)
    (ho : ∀ d, (x.drive d).bound = some t →
        (y.drive d).mountOpen = (x.drive d).mountOpen) : y.closeOf t = x.closeOf t := by
  have hbd : y.boundDrive t = x.boundDrive t := by simp only [Plant.boundDrive, hb]
  unfold Plant.closeOf
  rw [ht, hbd]
  split
  · rename_i d _ hd
    rw [ho d (Plant.boundDrive_iff.mp hd).1]
  · rfl

/-- The tasks that end leave the closes of the others as they were. -/
theorem Plant.Ended.closeOf {L : List TaskNo} {x y : Plant} (h : Plant.Ended L x y) {u : TaskNo} (hu : u ∉ L) :
    y.closeOf u = x.closeOf u := by
  refine Plant.closeOf_congr (by rw [h.tasks, if_neg hu]) (fun d => ?_) fun d hd => ?_
  · obtain ⟨f, b, hf, -⟩ := h.drives d
    rw [hf]
  · rw [h.unbound d fun t ht e => hu (Option.some.inj (hd.symm.trans e) ▸ ht)]

end Sys2Proof.Machine
end

section
/-!
SUPPORT. All tasks at a restart, one after the other (R54, R192).
-/
namespace Sys2Proof.Machine

/-! ### A task's mount is closed, and the task ends (R54, R192) -/

/-- The close of a task's mount at a restart. -/
def restartClose (e : Env) (t : TaskNo) (k : Task) (a : Acu) (x : Plant) : Acu × Plant :=
  match x.boundDrive t with
  | some d => if k.closesAtRestart then closeMount e t d ⟨0, 0, 0⟩ a (x.tag t .restartClosed) else (a, x)
  | none => (a, x)

section Task
variable {e : Env} {t : TaskNo} {k : Task} {a : Acu} {x : Plant}

theorem restartTask_none (h : x.task? t = none) : restartTask e t a x = (a, x) := by simp [restartTask, h]

theorem restartTask_some (h : x.task? t = some k) :
    restartTask e t a x = ((restartClose e t k a x).1, (restartClose e t k a x).2.endRestarted t k.tags) := by
  rw [restartTask, h]
  rfl

/-- The drives after the close of a task's mount. -/
def Plant.DrivesClose (t : TaskNo) (x y : Plant) : Prop :=
  y.dru = x.dru ∨ ∃ d, (x.drive d).bound = some t ∧ y.dru = (x.updDrive d Drive.closed).dru

theorem closeMount_shut {d : DriveNo} (h : (x.drive d).mountOpen = false) (n : Counters) : closeMount e t d n a x =
    (a, x) := by
  unfold closeMount
  split
  · rfl
  · rw [if_pos (by simp [h])]

theorem restartClose_closing (h : x.task? t = some k) :
    ∃ us, Plant.Closing t x (restartClose e t k a x).2 ∧ Plant.DrivesClose t x (restartClose e t k a x).2
      ∧ Closes e (x.closeOf t).toList us a (restartClose e t k a x).1 x (restartClose e t k a x).2 := by
  have idle (hc : x.closeOf t = none) : ∃ us, Plant.Closing t x x ∧ Plant.DrivesClose t x x
      ∧ Closes e (x.closeOf t).toList us a a x x := by
    rw [hc]
    exact ⟨[], .refl t x, .inl rfl, .of_vol fun _ => rfl⟩
  unfold restartClose
  split
  · rename_i d hd
    split
    · rename_i hs
      cases ho : (x.drive d).mountOpen with
      | false =>
        have hc : x.closeOf t = none := by simp [Plant.closeOf, h, hd, ho]
        rw [closeMount_shut (x := x.tag t .restartClosed) ho, hc]
        exact ⟨[], .tag t _ x, .inl rfl, .of_vol fun _ => rfl⟩
      | true =>
        have hc : x.closeOf t = some (t, k, d) := by simp [Plant.closeOf, h, hd, hs, ho]
        have hk : (x.tag t .restartClosed).task? t = some { k with tags := addTag .restartClosed k.tags } := by
          rw [Plant.tag, Plant.task?_updTask_same, h]; rfl
        obtain ⟨g, hg, ha, hx, hdr, hv⟩ := closeMount_closing (e := e) (a := a) (d := d) hk ho
        have hbit : g.getLsbD CondTag.restartClosed.bit = true := hg _ (by simp [addTag, CondTag.bit])
        rw [hc, ha]
        exact ⟨_, (Plant.Closing.tag t _ x).trans hx, .inr ⟨d, (Plant.boundDrive_iff.mp hd).1, hdr⟩,
          Closes.single (k := k) hbit hv⟩
    · rename_i hs
      exact idle (by simp [Plant.closeOf, h, hd, hs])
  · rename_i hd
    exact idle (by simp [Plant.closeOf, h, hd])

theorem Plant.DrivesClose.drive {y : Plant} (h : Plant.DrivesClose t x y) (d : DriveNo) :
    (∃ f b, y.drive d = { x.drive d with footage := f, mountOpen := b }
      ∧ ((x.drive d).footage ≤ 4294967295 → f = (x.drive d).footage))
      ∧ ((x.drive d).bound ≠ some t → y.drive d = x.drive d) := by
  have keep (hd : y.drive d = x.drive d) :
      (∃ f b, y.drive d = { x.drive d with footage := f, mountOpen := b }
        ∧ ((x.drive d).footage ≤ 4294967295 → f = (x.drive d).footage))
        ∧ ((x.drive d).bound ≠ some t → y.drive d = x.drive d) := ⟨⟨_, _, hd, fun _ => rfl⟩, fun _ => hd⟩
  rcases h with h | ⟨c, hb, h⟩
  · exact keep (congrArg (fun r : Dru => r.drives.get d) h)
  · have hy : y.drive d = (x.updDrive c Drive.closed).drive d := congrArg (fun r : Dru => r.drives.get d) h
    by_cases hc : c = d
    · subst hc
      rw [Plant.drive_updDrive_same] at hy
      refine ⟨⟨_, _, hy, fun hf => ?_⟩, fun hn => absurd hb hn⟩
      simpa [Drive.addFootage, satAdd] using hf
    · exact keep (hy.trans (Plant.drive_updDrive_other hc _ x))

/-- One task at a restart: it has ended, and its mount is closed where it stood open. -/
theorem restartTask_ended (e : Env) (t : TaskNo) (a : Acu) (x : Plant) :
    ∃ us, Plant.Ended [t] x (restartTask e t a x).2
      ∧ Closes e (x.closeOf t).toList us a (restartTask e t a x).1 x (restartTask e t a x).2 := by
  cases h : x.task? t with
  | none =>
    have hc : x.closeOf t = none := by simp [Plant.closeOf, h]
    rw [restartTask_none h, hc]
    refine ⟨[], { Plant.Ended.nil x with made := ?_, tasks := fun u => ?_, unbound := fun _ _ => rfl }, .of_vol
        fun _ => rfl⟩
    · exact ⟨[], [], .of_out rfl, fun u hu k hk => by simp_all⟩
    · by_cases hu : u = t <;> simp [hu, h]
  | some k =>
    rw [restartTask_some h]
    obtain ⟨us, hx, hd, hc⟩ := restartClose_closing (e := e) (a := a) h
    generalize restartClose e t k a x = p at hx hd hc
    obtain ⟨b, y⟩ := p
    obtain ⟨g, hg, -⟩ := hx.own k h
    obtain ⟨hl, hm, hdr, ha, hmgu⟩ := Plant.endRestarted_frame t k.tags y
    obtain ⟨⟨l, m, hs⟩, hlib, hflags⟩ := hx.reports
    have drive : ∀ d, (y.endRestarted t k.tags).drive d = y.drive d := fun d => congrArg
        (fun r : Dru => r.drives.get d) hdr
    refine ⟨us, ?_, hc.buffer, hc.usages, hc.accounts, fun q => ?_⟩
    · exact
      { made := ⟨_, _, hs.trans (Plant.endRestarted_makes hg), fun u hu k' hk' => by
          obtain rfl := List.mem_singleton.mp hu
          obtain rfl := Option.some.inj (h.symm.trans hk')
          exact fun f hf => List.mem_append_right _ hf⟩
        library := by simp only [hmgu]; exact hlib
        flags := by simp only [hmgu]; exact hflags
        tables := (congrArg Ltu.fixed hl).trans hx.tables
        motion := hm.trans hx.motion
        audits := ha.trans hx.audits
        tasks := fun u => by
          rw [Plant.task?_endRestarted]
          by_cases hu : u = t
          · simp [hu]
          · simp [hu, hx.others u hu]
        drives := fun d => by rw [drive]; exact (hd.drive d).1
        unbound := fun d hb => (drive d).trans ((hd.drive d).2 (hb t (List.mem_singleton.mpr rfl))) }
    · exact (Plant.vol?_congr (congrArg Ltu.volumes hl) q).trans (hc.volumes q)

end Task

/-! ### Every task -/

/-- The tasks of a list at a restart, one after the other. -/
theorem restartTask_foldl (e : Env) {L : List TaskNo} (hL : L.Nodup) (a : Acu) (x : Plant) :
    ∃ us b y, L.foldl (fun (c : Acu × Plant) t => restartTask e t c.1 c.2) (a, x) = (b, y) ∧ Plant.Ended L x y
      ∧ Closes e (L.filterMap x.closeOf) us a b x y := by
  induction L generalizing a x with
  | nil => exact ⟨[], a, x, rfl, .nil x, .of_vol fun _ => rfl⟩
  | cons t ts ih =>
    obtain ⟨ht, hts⟩ := List.nodup_cons.mp hL
    obtain ⟨us, hx, hc⟩ := restartTask_ended e t a x
    obtain ⟨vs, b, z, hz, hxz, hcz⟩ := ih hts (restartTask e t a x).1 (restartTask e t a x).2
    have later : ts.filterMap (restartTask e t a x).2.closeOf = ts.filterMap x.closeOf :=
      List.filterMap_congr fun u hu => hx.closeOf (by rintro h; exact ht (List.mem_singleton.mp h ▸ hu))
    have first : (t :: ts).filterMap x.closeOf = (x.closeOf t).toList ++ ts.filterMap x.closeOf := by
      cases h : x.closeOf t <;> simp [h]
    refine ⟨us ++ vs, b, z, hz, hx.trans hxz (by simpa using ht), ?_⟩
    rw [first, ← later]
    exact hc.trans hcz

/-- What every task's end at a restart leaves (R54, R192). -/
theorem restartTasks_ended (e : Env) (a : Acu) (x : Plant) :
    ∃ us b y, restartTasks e a x = (b, y) ∧ Plant.Ended (List.finRange 48) x y
      ∧ Closes e ((List.finRange 48).filterMap x.closeOf) us a b x y ∧ y.tcu.requests = [] ∧ y.tcu.rackFull = false := by
  obtain ⟨us, b, y, hy, hx, hc⟩ := restartTask_foldl e (List.nodup_finRange 48) a x
  refine ⟨us, b, { y with tcu.requests := [], tcu.rackFull := false }, by rw [restartTasks, hy], ?_, ?_, rfl, rfl⟩
  · obtain ⟨l, m, hm, hl⟩ := hx.made
    exact ⟨⟨l, m, ⟨hm.onC, hm.onM, hm.orders, hm.shows⟩, hl⟩, hx.library, hx.flags, hx.tables, hx.motion, hx.audits, hx.tasks, hx.drives, hx.unbound⟩
  · exact ⟨hc.buffer, hc.usages, hc.accounts, hc.volumes⟩

/-- The mounts that a restart closes, by rising task number. -/
theorem Plant.closes_sorted (x : Plant) :
    ((List.finRange 48).filterMap x.closeOf).Pairwise (fun c d => c.1 < d.1) := by
  refine (List.pairwise_lt_finRange 48).filterMap _ fun t u htu c hc d hd => ?_
  rw [(Plant.closeOf_some.mp hc).1, (Plant.closeOf_some.mp hd).1]
  exact htu

theorem Plant.mem_closes {x : Plant} {c : TaskNo × Task × DriveNo} :
    c ∈ (List.finRange 48).filterMap x.closeOf ↔ x.task? c.1 = some c.2.1
      ∧ (c.2.1.state = .mounted ∨ (c.2.1.state = .unloading ∧ c.2.1.pending = none))
      ∧ (x.drive c.2.2).bound = some c.1 ∧ (∀ e, e < c.2.2 → (x.drive e).bound ≠ some c.1)
      ∧ (x.drive c.2.2).mountOpen = true := by
  simp only [List.mem_filterMap, List.mem_finRange, true_and, Plant.closeOf_some]
  exact ⟨fun ⟨_, _, h⟩ => h, fun h => ⟨c.1, rfl, h⟩⟩

end Sys2Proof.Machine
end

section
/-!
SUPPORT. The RECOVERs of both accessors, LIBRARY START, and the queues and pace marks at a restart (R34, R101, R226).
-/
namespace Sys2Proof.Machine

/-! ### RECOVER is sent, or kept unsent under hold (R101, R107) -/

/-- The RECOVER of an accessor, for the holder of the grant as it stands. -/
def Plant.recovery (a : Acc) (x : Plant) : StepKind := .recover (!decide (x.mou.holder = some a)) (retreatBay a)

/-- An accessor that is recovering with its RECOVER kept unsent. -/
def AccCtx.recoveryDue (c : AccCtx) : AccCtx := { c with state := .recovering, recoverDue := true }

/-- An accessor that is recovering with its RECOVER sent. -/
def AccCtx.recoveryIn (e : Env) (k : StepKind) (c : AccCtx) : AccCtx :=
  { c with state := .recovering, recoverDue := false, step := some { kind := k, tag := c.nextTag, deadline := e.tick + 100 },
           nextTag := c.nextTag + 1 }

theorem Plant.recover_held {e : Env} (h : e.held = true) (a : Acc) (x : Plant) :
    x.recover e a = x.updAcc a AccCtx.recoveryDue := by
  unfold Plant.recover
  rw [if_pos h]
  cases a <;> rfl

theorem Plant.recover_sent {e : Env} (h : e.held = false) (a : Acc) (x : Plant) :
    x.recover e a = (x.updAcc a (AccCtx.recoveryIn e (x.recovery a))).sendM (.step a (x.recovery a)
        (x.acc a).nextTag) := by
  unfold Plant.recover
  rw [if_neg (by simp [h])]
  cases a <;> rfl

/-- Both accessors recover: what is on the way, and what goes out (R101, R107). -/
theorem Plant.recover_both (e : Env) (x : Plant) :
    ∃ m o, (x.recover e .A).recover e .B = { x with mou := m, out := o }
      ∧ m = { x.mou with accA := m.accA, accB := m.accB } ∧ o.c = x.out.c
      ∧ (e.held = true → m.accA = x.mou.accA.recoveryDue ∧ m.accB = x.mou.accB.recoveryDue ∧ o.m = x.out.m)
      ∧ (e.held = false → m.accA = x.mou.accA.recoveryIn e (x.recovery .A) ∧ m.accB = x.mou.accB.recoveryIn e
          (x.recovery .B)
        ∧ o.m = x.out.m ++ [.step .A (x.recovery .A) x.mou.accA.nextTag, .step .B
            (x.recovery .B) x.mou.accB.nextTag]) := by
  cases h : e.held with
  | true =>
    rw [Plant.recover_held h, Plant.recover_held h]
    exact ⟨_, x.out, rfl, rfl, rfl, fun _ => ⟨rfl, rfl, rfl⟩, fun h => absurd h (by simp)⟩
  | false =>
    rw [Plant.recover_sent h, Plant.recover_sent h]
    refine ⟨_, _, rfl, rfl, rfl, fun h => absurd h (by simp), fun _ => ⟨rfl, rfl, ?_⟩⟩
    exact List.append_assoc x.out.m [_] [_]

/-! ### LIBRARY START (R226) -/

theorem exec_libraryStart_wrong {h : Hdr} {s : State} (hs : s.manages h) (hl : s.plant.mgu.lib ≠ .loading) :
    exec (.libraryStart h) s = .next (s.replied h .wrongState .nothing) := by
  refine (State.mgmt_body hs _).trans ?_
  rw [if_neg hl]
  rfl

theorem exec_libraryStart_taken {h : Hdr} {s : State} {x : Plant} (hs : s.manages h) (hl : s.plant.mgu.lib = .loading)
    (hx : x = { s.plant with mgu := { s.plant.mgu with lib := .running } }) :
    exec (.libraryStart h) s
      = .next (({ s with plant := (x.recover s.env .A).recover s.env .B } : State).replied h .accepted .nothing) := by
  subst hx
  refine (State.mgmt_body hs _).trans ?_
  rw [if_pos hl]
  rfl

/-! ### The queues and the pace marks at a restart (R34) -/

/-- The state with more frames on the C-link. -/
def State.tell (l : List CFrame) (s : State) : State := { s with plant.out.c := s.plant.out.c ++ l }

theorem State.tell_nil (s : State) : s.tell [] = s := by simp [State.tell]

theorem State.tell_tell (l k : List CFrame) (s : State) : (s.tell l).tell k = s.tell (l ++ k) := by
  simp [State.tell]

theorem State.foldl_tell {α : Type} {f : State → α → State} {g : α → List CFrame} (hf : ∀ y a, f y a = y.tell (g a))
    (l : List α) (s : State) : l.foldl f s = s.tell (l.flatMap g) := by
  induction l generalizing s with
  | nil => exact s.tell_nil.symm
  | cons a as ih => rw [List.foldl_cons, ih, hf, State.tell_tell, List.flatMap_cons]

/-- What the orders of a state's queues are told at a restart. -/
def State.queueFrames (s : State) : List CFrame :=
  [(0 : Path), 1, 2, 3].flatMap fun p =>
    (s.queue p).flatMap fun o => [CFrame.status p (some o.tag) .last (.ended .libraryRestarted 0)]

/-- What the PACED paths of a state are told at a restart. -/
def State.paceFrames (s : State) : List CFrame :=
  [(0 : Path), 1, 2, 3].flatMap fun p => if s.oiu.paced.get p then [CFrame.status p none .path .resume] else []

theorem State.flushQueues_eq (s : State) :
    s.flushQueues = { s.tell s.queueFrames with oiu.queues := Vector.replicate 4 [] } := by
  have told : ∀ (y : State) (p : Path),
      (s.queue p).foldl (fun (z : State) o => z.toOrder { path := p, tag := o.tag, sized := true } .last
        (.ended .libraryRestarted 0)) y
      = y.tell ((s.queue p).flatMap fun o => [CFrame.status p (some o.tag) .last (.ended .libraryRestarted 0)]) :=
    fun y p => State.foldl_tell (fun _ _ => rfl) _ y
  exact congrArg (fun y : State => { y with oiu.queues := Vector.replicate 4 [] }) (State.foldl_tell told _ s)

theorem State.resumePaths_eq (s : State) :
    s.resumePaths = { s.tell s.paceFrames with oiu.paced := Vector.replicate 4 false } := by
  have step : ∀ (y : State) (p : Path), (if s.oiu.paced.get p then y.pathStatus p .resume else y)
      = y.tell (if s.oiu.paced.get p then [CFrame.status p none .path .resume] else []) := fun y p => by
    split
    · rfl
    · exact y.tell_nil.symm
  exact congrArg (fun y : State => { y with oiu.paced := Vector.replicate 4 false }) (State.foldl_tell step _ s)

theorem Path.mem_all (p : Path) : p ∈ [(0 : Path), 1, 2, 3] := by
  revert p
  decide

theorem State.mem_queueFrames {s : State} {f : CFrame} :
    f ∈ s.queueFrames ↔ ∃ p, ∃ o ∈ s.oiu.queues.get p, f = .status p (some o.tag) .last
        (.ended .libraryRestarted 0) := by
  simp only [State.queueFrames, State.queue, List.mem_flatMap, List.mem_singleton]
  exact ⟨fun ⟨p, _, h⟩ => ⟨p, h⟩, fun ⟨p, h⟩ => ⟨p, Path.mem_all p, h⟩⟩

theorem State.mem_paceFrames {s : State} {f : CFrame} :
    f ∈ s.paceFrames ↔ ∃ p, s.oiu.paced.get p = true ∧ f = .status p none .path .resume := by
  simp only [State.paceFrames, List.mem_flatMap]
  refine exists_congr fun p => ?_
  cases s.oiu.paced.get p <;> simp [Path.mem_all p]

end Sys2Proof.Machine
end

section
/-!
SUPPORT. The drives at a restart, their UNLOADs and their CLEAN prompts (R132, R170).
-/
namespace Sys2Proof.Machine

/-! ### A drive's entry after a restart (R132) -/

/-- The state that events act on, where it is not EMPTY. -/
theorem Drive.eff_iff (r : Drive) {st : DriveState} (h1 : st ≠ .empty) (h2 : st ≠ .faulted) :
    r.eff = st ↔ r.state = st ∨ (r.state = .faulted ∧ r.preFault = some st) := by
  unfold Drive.eff
  split
  · rename_i h
    rw [h]
    cases r.preFault <;> simp [h1.symm, h2.symm]
  · rename_i h
    simp [h]

/-- What a restart does not write of a drive. -/
theorem Drive.restarted_keeps (r : Drive) :
    r.restarted = { r with state := r.restarted.state, preFault := r.restarted.preFault, volume := r.restarted.volume,
                           bound := none, mountOpen := false, offlinePending := r.restarted.offlinePending,
                           rethreadDone := r.restarted.rethreadDone, unloadSeen := r.restarted.unloadSeen } := by
  unfold Drive.restarted Drive.emptied Drive.setEff
  dsimp only
  (repeat' split) <;> rfl

/-- What a restart gives a drive that is not FAULTED, by its state. -/
theorem Drive.restarted_working {r q : Drive} (hq : q = r.restarted) :
    ((r.state = .empty ∨ r.state = .offline ∨ r.state = .absent ∨ r.state = .heldReel) →
        q.state = r.state ∧ q.volume = r.volume ∧ q.unloadSeen = r.unloadSeen ∧ q.offlinePending = r.offlinePending)
      ∧ (r.state = .reserved → q.volume = none ∧ q.unloadSeen = false ∧ q.offlinePending = false
          ∧ q.state = if r.offlinePending then .offline else .empty)
      ∧ (r.state = .cleanDue → q.state = .cleanDue ∧ q.volume = none ∧ q.offlinePending = r.offlinePending)
      ∧ ((r.state = .threading ∨ r.state = .mounted ∨ r.state = .unloading ∨ r.state = .unloaded) →
          q.state = .heldReel ∧ q.volume = r.volume ∧ q.offlinePending = r.offlinePending
          ∧ (r.state = .threading → q.unloadSeen = r.unloadSeen)
          ∧ ((r.state = .mounted ∨ r.state = .unloading) → q.unloadSeen = false)
          ∧ (r.state = .unloaded → q.unloadSeen = true)) := by
  subst hq
  refine ⟨fun h => ?_, fun h => ?_, fun h => ?_, fun h => ?_⟩
  · rcases h with h | h | h | h <;> simp [Drive.restarted, Drive.eff, h]
  · cases ho : r.offlinePending <;> simp [Drive.restarted, Drive.eff, Drive.emptied, h, ho]
  · simp [Drive.restarted, Drive.eff, h]
  · rcases h with h | h | h | h <;> simp [Drive.restarted, Drive.eff, Drive.setEff, h]

/-- What a restart gives a FAULTED drive, by the state it had before its fault. -/
theorem Drive.restarted_faulted {r q : Drive} (hq : q = r.restarted) (h : r.state = .faulted) :
    q.state = .faulted ∧ q.offlinePending = r.offlinePending
      ∧ (r.preFault = some .reserved → q.preFault = some .empty ∧ q.volume = none)
      ∧ ((r.preFault = some .threading ∨ r.preFault = some .mounted ∨ r.preFault = some .unloading
          ∨ r.preFault = some .unloaded) → q.preFault = some .heldReel ∧ q.volume = r.volume)
      ∧ ((r.preFault = some .empty ∨ r.preFault = some .heldReel ∨ r.preFault = some .cleanDue) →
          q.preFault = r.preFault) := by
  subst hq
  refine ⟨?_, ?_, fun hp => ?_, fun hp => ?_, fun hp => ?_⟩
  · unfold Drive.restarted Drive.emptied Drive.setEff
    dsimp only
    (repeat' split) <;> simp_all
  · unfold Drive.restarted Drive.emptied Drive.setEff
    dsimp only
    (repeat' split) <;> simp_all
  · simp [Drive.restarted, Drive.eff, Drive.emptied, h, hp]
  · rcases hp with hp | hp | hp | hp <;> simp [Drive.restarted, Drive.eff, Drive.setEff, h, hp]
  · rcases hp with hp | hp | hp <;> simp [Drive.restarted, Drive.eff, h, hp]

/-! ### A prompt asked for with room in the table (R149) -/

/-- A CLEAN prompt of a drive. -/
def Prompt.cleans (d : DriveNo)
    (p : Prompt) : Prop := p.kind = .clean ∧ p.owner = .drive d ∧ p.params = { drive := some d }

theorem Plant.ask_opens {x : Plant} (h : x.pru.table.length < 32) (hl : x.pru.later = none) (e : Env) (k : PromptKind)
    (v : Params) (o : PromptOwner) :
    ∃ p, p.kind = k ∧ p.owner = o ∧ p.params = v ∧ (x.ask e k v o).pru.table = x.pru.table ++ [p]
      ∧ (x.ask e k v o).pru.later = none ∧ (x.ask e k v o).pru.backlog = x.pru.backlog
      ∧ (x.ask e k v o).mgu = x.mgu ∧ (x.ask e k v o).out.c = x.out.c := by
  simp only [Plant.ask, Plant.request, hl, Plant.place, if_pos h, Plant.openPrompt]
  generalize hz : ({ x with pru := _ } : Plant) = z
  obtain ⟨ht, hla, hb⟩ := Plant.judgeViews_pru e z
  obtain ⟨-, -, -, -, -, hm⟩ := Plant.judgeViews_frame e z
  rw [ht, hla, hb, hm, Plant.judgeViews_sent]
  subst hz
  exact ⟨_, rfl, rfl, rfl, rfl, rfl, rfl, rfl, rfl⟩

theorem Plant.ask_shows (e : Env) (k : PromptKind) (v : Params) (o : PromptOwner) (x : Plant) :
    ∃ m, (x.ask e k v o).out.m = x.out.m ++ m ∧ ∀ f ∈ m, f.moves = false := by
  obtain ⟨⟨_, m, hm⟩, -, -⟩ := Plant.Reports.ask e k v o x
  exact ⟨m, hm.onM, hm.shows⟩

/-! ### Every drive at a restart (R132, R170) -/

/-- A drive that is sent UNLOAD at a restart: its reel is THREADING and its unload has not been seen. -/
def Drive.unloads (r : Drive) : Prop := r.eff = .threading ∧ r.unloadSeen = false

/-- What a restart of the drives of `L` leaves of a plant with room in its prompt table (R132, R170). -/
structure Plant.DrivesRestarted (L : List DriveNo) (x y : Plant) : Prop where
  drives : ∀ d, y.drive d = if d ∈ L then (x.drive d).restarted else x.drive d
  library : y.mgu = x.mgu
  onC : y.out.c = x.out.c
  onM : ∃ m, y.out.m = x.out.m ++ m ∧ (∀ a k g, MFrame.step a k g ∉ m)
    ∧ ∀ d, MFrame.drive d .unload ∈ m ↔ d ∈ L ∧ (x.drive d).unloads
  later : y.pru.later = none
  backlog : y.pru.backlog = x.pru.backlog
  table : ∃ l, y.pru.table = x.pru.table ++ l ∧ l.length ≤ L.length
    ∧ (∀ p ∈ l, ∃ d ∈ L, (x.drive d).eff = .cleanDue ∧ p.cleans d)
    ∧ ∀ d ∈ L, (x.drive d).eff = .cleanDue → ∃ p ∈ l, p.cleans d

theorem Plant.DrivesRestarted.nil {x : Plant} (h : x.pru.later = none) : Plant.DrivesRestarted [] x x where
  drives d := by simp
  library := rfl
  onC := rfl
  onM := ⟨[], by simp⟩
  later := h
  backlog := rfl
  table := ⟨[], by simp⟩

theorem Plant.DrivesRestarted.trans {K L : List DriveNo} {x y z : Plant} (h : Plant.DrivesRestarted K x y)
    (g : Plant.DrivesRestarted L y z) (hd : K.Disjoint L) : Plant.DrivesRestarted (K ++ L) x z := by
  have same : ∀ d ∈ L, y.drive d = x.drive d := fun d hL => by rw [h.drives, if_neg fun hK => hd hK hL]
  obtain ⟨m, hm, hs, hu⟩ := h.onM
  obtain ⟨n, gm, gs, gu⟩ := g.onM
  obtain ⟨l, ht, hll, hlc, hcl⟩ := h.table
  obtain ⟨k, gt, gll, glc, gcl⟩ := g.table
  exact
  { drives := fun d => by
      rw [g.drives, h.drives]
      by_cases hK : d ∈ K
      · have hL : d ∉ L := fun hL => hd hK hL
        simp [hK, hL]
      · simp [hK]
    library := g.library.trans h.library
    onC := g.onC.trans h.onC
    onM := ⟨m ++ n, by rw [gm, hm, List.append_assoc], fun a k f hf => (List.mem_append.mp hf).elim (hs a k f)
        (gs a k f),
      fun d => by
        rw [List.mem_append, List.mem_append, hu, gu, or_and_right]
        exact or_congr_right (and_congr_right fun hL => by rw [same d hL])⟩
    later := g.later
    backlog := g.backlog.trans h.backlog
    table := ⟨l ++ k, by rw [gt, ht, List.append_assoc], by simp only [List.length_append]; omega,
      fun p hp => by
        rcases List.mem_append.mp hp with hp | hp
        · obtain ⟨d, hK, hc⟩ := hlc p hp
          exact ⟨d, List.mem_append_left _ hK, hc⟩
        · obtain ⟨d, hL, hc⟩ := glc p hp
          exact ⟨d, List.mem_append_right _ hL, same d hL ▸ hc⟩,
      fun d hd' hc => by
        rcases List.mem_append.mp hd' with hK | hL
        · obtain ⟨p, hp, hpc⟩ := hcl d hK hc
          exact ⟨p, List.mem_append_left _ hp, hpc⟩
        · obtain ⟨p, hp, hpc⟩ := gcl d hL (same d hL ▸ hc)
          exact ⟨p, List.mem_append_right _ hp, hpc⟩⟩ }

theorem Plant.drive_ifUpdated (d c : DriveNo) (x : Plant) :
    (x.updDrive d Drive.restarted).drive c = if c ∈ [d] then (x.drive c).restarted else x.drive c := by
  by_cases h : c = d
  · subst h; simp
  · simp [h, Plant.drive_updDrive_other (Ne.symm h)]

/-- One drive at a restart (R132). -/
theorem Plant.restartDrive_restarted {x : Plant} (h : x.pru.table.length < 32) (hl : x.pru.later = none) (e : Env)
    (d : DriveNo) :
    Plant.DrivesRestarted [d] x (x.restartDrive e d) := by
  have still (hu : ¬ (x.drive d).unloads) (hc : (x.drive d).eff ≠ .cleanDue) :
      Plant.DrivesRestarted [d] x (x.updDrive d Drive.restarted) :=
    { Plant.DrivesRestarted.nil hl with
      drives := fun c => Plant.drive_ifUpdated d c x
      onM := ⟨[], by simp, by simp, fun c => by simpa using fun hcd => hcd ▸ hu⟩
      table := ⟨[], by simp, by simp, by simp, by simpa using hc⟩ }
  unfold Plant.restartDrive
  dsimp only
  split
  · rename_i he
    split
    · rename_i hu
      exact still (fun h => absurd h.2 (by simp [hu])) (by simp [he])
    · rename_i hu
      have hun : (x.drive d).unloads := ⟨he, by simpa using hu⟩
      exact
      { Plant.DrivesRestarted.nil hl with
        drives := fun c => Plant.drive_ifUpdated d c x
        onM := ⟨[.drive d .unload], rfl, by simp, fun c => by
          simp only [List.mem_singleton, MFrame.drive.injEq, and_true]
          exact ⟨fun hc => ⟨hc, hc ▸ hun⟩, fun hc => hc.1⟩⟩
        table := ⟨[], by simp, by simp, by simp, by simp [he]⟩ }
  · rename_i he
    obtain ⟨p, hk, ho, hp, ht, hla, hb, hm, hc⟩ :=
      Plant.ask_opens (x := x.updDrive d Drive.restarted) h hl e .clean { drive := some d } (.drive d)
    obtain ⟨m, hmm, hms⟩ := Plant.ask_shows e .clean { drive := some d } (.drive d) (x.updDrive d Drive.restarted)
    have hdr := (Plant.ask_frame e .clean { drive := some d } (.drive d) (x.updDrive d Drive.restarted)).2.2.2.1
    exact
    { drives := fun c => (congrArg (fun r : Dru => r.drives.get c) hdr).trans (Plant.drive_ifUpdated d c x)
      library := hm
      onC := hc
      onM := ⟨m, hmm, fun a k g hf => by simpa [MFrame.moves] using hms _ hf, fun c => by
        refine ⟨fun hf => by simpa [MFrame.moves] using hms _ hf, fun ⟨hcd, hu⟩ => ?_⟩
        obtain rfl := List.mem_singleton.mp hcd
        exact absurd (he.symm.trans hu.1) (by simp)⟩
      later := hla
      backlog := hb
      table := ⟨[p], ht, le_rfl, by simp [he, Prompt.cleans, hk, ho, hp], by simp [Prompt.cleans, hk, ho, hp]⟩ }
  · rename_i h1 h2
    exact still (fun hu => h1 hu.1) h2

theorem Plant.restartDrive_foldl (e : Env) {L : List DriveNo} (hL : L.Nodup) {x : Plant}
    (h : x.pru.table.length + L.length ≤ 32) (hl : x.pru.later = none) :
    Plant.DrivesRestarted L x (L.foldl (fun y d => y.restartDrive e d) x) := by
  induction L generalizing x with
  | nil => exact .nil hl
  | cons d ds ih =>
    obtain ⟨hd, hds⟩ := List.nodup_cons.mp hL
    rw [List.length_cons] at h
    have hx := Plant.restartDrive_restarted (x := x) (by omega) hl e d
    obtain ⟨l, ht, hll, -⟩ := hx.table
    have hroom : (x.restartDrive e d).pru.table.length + ds.length ≤ 32 := by
      rw [ht, List.length_append]
      simp only [List.length_singleton] at hll
      omega
    exact hx.trans (ih hds hroom hx.later) (by simpa using hd)

/-- Every drive at a restart, with the prompt table empty (R132, R170). -/
theorem Plant.restartDrives_restarted {x : Plant} (h : x.pru.table = []) (hl : x.pru.later = none) (e : Env) :
    Plant.DrivesRestarted (List.finRange 32) x (x.restartDrives e) :=
  Plant.restartDrive_foldl e (List.nodup_finRange 32) (by simp [h]) hl

end Sys2Proof.Machine
end

section
/-!
SUPPORT. The blocks at a restart, and RESTART as a whole (R113, R132, R170, R210, R227).
-/
namespace Sys2Proof.Machine

/-! ### The blocks at a restart (R26, R113, R132, R170, R210) -/

/-- What the blocks of a plant are after a restart, the tasks and the queues having done their part. -/
structure Plant.BlocksRestarted (e : Env) (x y : Plant) : Prop where
  tables : y.ltu = x.ltu.restarted
  tasks : y.tcu = x.tcu
  library : y.mgu = x.mgu
  motion : y.mou = { x.mou.restarted with accA := y.mou.accA, accB := y.mou.accB }
  held : e.held = true → ∀ a, y.acc a = (x.acc a).restarted.recoveryDue
  sent : e.held = false → ∀ a, y.acc a = (x.acc a).restarted.recoveryIn e (.recover true (retreatBay a))
  onC : y.out.c = x.out.c
  onM : ∃ k v, y.out.m = x.out.m ++ (k ++ v) ∧ (e.held = true → k = [])
    ∧ (e.held = false →
      k = [.step .A (.recover true 47) x.mou.accA.nextTag, .step .B (.recover true 80) x.mou.accB.nextTag])
    ∧ (∀ a k g, MFrame.step a k g ∉ v) ∧ ∀ d, MFrame.drive d .unload ∈ v ↔ (x.drive d).unloads
  drives : ∀ d, y.drive d = (x.drive d).restarted
  waiting : y.pru.backlog = [] ∧ y.pru.later = none
  prompts : ∀ p ∈ y.pru.table, ∃ d, (x.drive d).eff = .cleanDue ∧ p.cleans d
  cleans : ∀ d, (x.drive d).eff = .cleanDue → ∃ p ∈ y.pru.table, p.cleans d
  audits : y.adu = { x.adu with list1 := x.adu.list1.restarted, list2 := x.adu.list2.restarted }

/-- The prompts at a restart: none is left, and the views are judged (R170). -/
theorem Plant.restartPrompts_clears (e : Env) (x : Plant) :
    (x.restartPrompts e).pru.table = [] ∧ (x.restartPrompts e).pru.backlog = [] ∧ (x.restartPrompts e).pru.later = none
      ∧ (x.restartPrompts e).out.c = x.out.c
      ∧ ∃ m, (x.restartPrompts e).out.m = x.out.m ++ m ∧ ∀ f ∈ m, f.moves = false := by
  unfold Plant.restartPrompts
  generalize hz : ({ x with pru := _ } : Plant) = z
  obtain ⟨ht, hl, hb⟩ := Plant.judgeViews_pru e z
  obtain ⟨⟨_, m, hm⟩, -, -⟩ := Plant.Reports.judgeViews e z
  subst hz
  exact ⟨ht, hb, hl, Plant.judgeViews_sent e _, m, hm.onM, hm.shows⟩

theorem Plant.restartBlocks_restarted (e : Env) (x : Plant) : Plant.BlocksRestarted e x (x.restartBlocks e) := by
  obtain ⟨m, o, hr, hm, hc, hheld, hsent⟩ :=
    Plant.recover_both e { x with ltu := x.ltu.restarted, mou := x.mou.restarted }
  unfold Plant.restartBlocks
  dsimp only
  rw [hr]
  generalize hz : ({ x with ltu := x.ltu.restarted, mou := m, out := o } : Plant) = z
  obtain ⟨hpt, hpb, hpl, hpc, n, hpm, hpn⟩ := Plant.restartPrompts_clears e z
  obtain ⟨gl, gt, gm, gd, ga, gg⟩ := Plant.restartPrompts_frame e z
  obtain ⟨fl, ft, fm, fa⟩ := Plant.restartDrives_frame e (z.restartPrompts e)
  have hd := Plant.restartDrives_restarted hpt hpl e
  generalize (z.restartPrompts e).restartDrives e = u at fl ft fm fa hd
  obtain ⟨w, hw, hws, hwu⟩ := hd.onM
  obtain ⟨l, hl, -, hlc, hcl⟩ := hd.table
  have drive : ∀ d, (z.restartPrompts e).drive d = x.drive d := fun d => by
    rw [Plant.drive, gd, ← hz]; rfl
  have mou : u.mou = m := by rw [fm, gm, ← hz]
  have acc : ∀ a, u.acc a = match a with | .A => m.accA | .B => m.accB :=
    fun a => by cases a <;> simp only [Plant.acc, mou]
  exact
  { tables := by rw [fl, gl, ← hz]
    tasks := by rw [ft, gt, ← hz]
    library := by rw [hd.library, gg, ← hz]
    motion := by
      rw [mou, hm]
    held := fun h a => by
      obtain ⟨hA, hB, -⟩ := hheld h
      refine (acc a).trans ?_
      cases a
      · exact hA
      · exact hB
    sent := fun h a => by
      obtain ⟨hA, hB, -⟩ := hsent h
      refine (acc a).trans ?_
      cases a
      · exact hA
      · exact hB
    onC := by rw [hd.onC, hpc, ← hz, hc]
    onM := by
      have after : u.out.m = o.m ++ (n ++ w) := by
        rw [hw, hpm, List.append_assoc, ← hz]
      have hv : (∀ a k g, MFrame.step a k g ∉ n ++ w)
          ∧ ∀ d, MFrame.drive d .unload ∈ n ++ w ↔ (x.drive d).unloads := by
        refine ⟨fun a k g hf => ?_, fun d => ?_⟩
        · rcases List.mem_append.mp hf with hf | hf
          · simpa [MFrame.moves] using hpn _ hf
          · exact hws a k g hf
        · have hn : MFrame.drive d .unload ∉ n := fun hf => by simpa [MFrame.moves] using hpn _ hf
          rw [List.mem_append, hwu, drive, or_iff_right hn, and_iff_right (List.mem_finRange d)]
      cases h : e.held with
      | true => exact ⟨[], n ++ w, after.trans (by rw [(hheld h).2.2]; rfl), fun _ => rfl, fun h => absurd h
          (by simp), hv⟩
      | false =>
        refine ⟨[.step .A (.recover true 47) x.mou.accA.nextTag, .step .B (.recover true 80) x.mou.accB.nextTag], n ++ w,
          after.trans ?_, fun h => absurd h (by simp), fun _ => rfl, hv⟩
        rw [(hsent h).2.2]
        exact List.append_assoc x.out.m [_, _] (n ++ w)
    drives := fun d => by
      refine (hd.drives d).trans ?_
      rw [if_pos (List.mem_finRange d), drive]
    waiting := ⟨hd.backlog.trans hpb, hd.later⟩
    prompts := fun p hp => by
      have hp : p ∈ l := by simpa [hl, hpt] using hp
      obtain ⟨d, -, hc⟩ := hlc p hp
      exact ⟨d, drive d ▸ hc⟩
    cleans := fun d he => by
      obtain ⟨p, hp, hc⟩ := hcl d (List.mem_finRange d) (by rw [drive]; exact he)
      exact ⟨p, by simpa [hl, hpt] using hp, hc⟩
    audits := by rw [fa, ga, ← hz] }

/-! ### RESTART as a whole (R227) -/

theorem exec_restart_wrong {h : Hdr} {s : State} (hs : s.manages h) (hl : s.plant.mgu.lib = .loading) :
    exec (.restart h) s = .next (s.replied h .wrongState .nothing) := by
  refine (State.mgmt_body hs _).trans ?_
  rw [hl]
  rfl

/-- The plant once the library is RESTARTING. -/
def Plant.restarting (x : Plant) : Plant := { x with mgu := { x.mgu with lib := .restarting, ansA := false, ansB := false } }

/-- The state that a RESTART leaves, once every task has ended. -/
theorem exec_restart_taken {h : Hdr} {s : State} (hs : s.manages h)
    (hl : s.plant.mgu.lib = .running ∨ s.plant.mgu.lib = .restarting) {b : Acu} {y z : Plant}
    (hy : restartTasks s.env s.acu s.plant.restarting = (b, y))
    (hz : z = { y with out.c := y.out.c ++ (s.queueFrames ++ s.paceFrames) }) :
    exec (.restart h) s = .next (({ s with
      acu := b, plant := z.restartBlocks s.env,
      oiu := { s.oiu with queues := Vector.replicate 4 [], paced := Vector.replicate 4 false } } : State).accept h) := by
  have run : exec (.restart h) s = .next (s.restarted h) := by
    refine (State.mgmt_body hs _).trans ?_
    rcases hl with hl | hl <;> rw [hl]
  have closed : ({ s with plant := s.plant.restarting } : State).closing restartTasks = { s with acu := b, plant := y } := by
    change ({ s with acu := (restartTasks s.env s.acu s.plant.restarting).1,
                     plant := (restartTasks s.env s.acu s.plant.restarting).2 } : State) = _
    rw [hy]
  have flushed : ({ s with acu := b, plant := y } : State).flushQueues.resumePaths = { s with
      acu := b, plant := z, oiu := { s.oiu with queues := Vector.replicate 4 [], paced := Vector.replicate 4 false } } := by
    rw [State.flushQueues_eq, State.resumePaths_eq, hz, ← List.append_assoc]
    rfl
  have whole : s.restarted h = ((((({ s with plant := s.plant.restarting } : State).closing restartTasks).flushQueues).resumePaths).plantly
      fun e x => x.restartBlocks e).accept h := rfl
  rw [run, whole, closed, flushed]
  rfl

end Sys2Proof.Machine
end

section
/-!
SUPPORT. The library tables and the accounts after a RESTART (R26, R192).
-/
namespace Sys2Proof.Machine

/-! ### The library tables after a RESTART (R26, R192) -/

theorem Volume.closedAt_iterate (limit n : Nat) (v : Volume) :
    ∃ m f w, (Volume.closedAt limit)^[n] v = { v with mounts := m, footage := f, worn := w } := by
  induction n generalizing v with
  | zero => exact ⟨_, _, _, rfl⟩
  | succ n ih =>
    obtain ⟨m, f, w, h⟩ := ih (v.closedAt limit)
    exact ⟨m, f, w, h⟩

theorem Volume.closedAt_worn (limit : Nat) (v : Volume) :
    (v.closedAt limit).worn = true ↔ v.worn = true ∨ (limit ≠ 0 ∧ limit ≤ (v.closedAt limit).mounts) := by
  simp [Volume.closedAt, limitReached]

/-- A volume once a restart has unbound it and taken it from where no reel is known to stand (R26). -/
theorem Volume.restarted_record (v : Volume) :
    v.restarted = { v with bound := none, loc := v.restarted.loc, misfiled := v.restarted.misfiled,
                           refilePending := v.restarted.refilePending }
      ∧ (((∃ a, v.loc = .gripper a) ∨ ∃ r, v.loc = .handoff r) →
          v.restarted.loc = .unknown ∧ v.restarted.misfiled = false ∧ v.restarted.refilePending = false)
      ∧ ((∃ n, v.loc = .entry n) →
          v.restarted.loc = .outside ∧ v.restarted.misfiled = false ∧ v.restarted.refilePending = false)
      ∧ ((∀ a, v.loc ≠ .gripper a) → (∀ r, v.loc ≠ .handoff r) → (∀ n, v.loc ≠ .entry n) →
          v.restarted.loc = v.loc ∧ v.restarted.misfiled = v.misfiled ∧ v.restarted.refilePending = v.refilePending) := by
  cases h : v.loc <;> simp [Volume.restarted, Volume.at_, Volume.misfiledAt, h]

/-- The closes of a restart that name a volume are one, where there is one only. -/
theorem closes_unique {cs : List (TaskNo × Task × DriveNo)} (hs : cs.Pairwise (fun x y => x.1 < y.1)) {q : Serial}
    {c : TaskNo × Task × DriveNo} (hc : c ∈ cs) (hq : c.2.1.serial = some q)
    (hu : ∀ d ∈ cs, d.2.1.serial = some q → d = c) : cs.filter (fun d => d.2.1.serial = some q) = [c] := by
  have hn : (cs.filter fun d => d.2.1.serial = some q).Nodup :=
    (hs.imp (fun h e => absurd (congrArg Prod.fst e) h.ne)).sublist List.filter_sublist
  refine List.perm_singleton.mp ((List.perm_ext_iff_of_nodup hn (List.nodup_singleton c)).mpr fun d => ?_)
  simp only [List.mem_filter, decide_eq_true_eq, List.mem_singleton]
  exact ⟨fun ⟨hd, hdq⟩ => hu d hd hdq, fun h => h ▸ ⟨hc, hq⟩⟩

theorem Slot.restarted_occupied {r : Slot} (h : r.state = .occupied) : r.restarted = { r with task := none } := by
  simp [Slot.restarted, h]

theorem Slot.restarted_other {r : Slot} (h : r.state ≠ .occupied) : r.restarted = Slot.clear := by
  unfold Slot.restarted
  split
  · rename_i he; exact absurd he h
  · rfl

theorem Slot.handoffRestarted_occupied {r : Slot} (h : r.state = .occupied) :
    r.handoffRestarted = { state := .occupied, content := some .unknown, task := none } := by
  simp [Slot.handoffRestarted, h, Slot.hold]

theorem Slot.handoffRestarted_other {r : Slot} (h : r.state ≠ .occupied) : r.handoffRestarted = Slot.clear := by
  unfold Slot.handoffRestarted
  split
  · rename_i he; exact absurd he h
  · rfl

@[simp] theorem get_map {α β : Type} {n : Nat} (f : α → β) (v : Vector α n) (i : Fin n) : (v.map f).get i = f
    (v.get i) := by
  simp [Vector.get_eq_getElem]

theorem Occ.restarted_cases (o : Occ) :
    ((∃ r u, o = .reserved r u) → o.restarted = .empty) ∧ ((∀ r u, o ≠ .reserved r u) → o.restarted = o) := by
  cases o <;> simp [Occ.restarted]

section Restart
variable {e : Env} {cs : List (TaskNo × Task × DriveNo)} {us : List Usage} {a b : Acu} {x y t : Plant}

theorem Plant.Ended.fields {L : List TaskNo} (hx : Plant.Ended L x y) :
    y.ltu.cells = x.ltu.cells ∧ y.ltu.pool = x.ltu.pool ∧ y.ltu.service = x.ltu.service
      ∧ y.ltu.volumes.map (fun v => v.serial) = x.ltu.volumes.map (fun v => v.serial) := by
  have field {α : Type} (g : Ltu × List Serial → α) : g y.ltu.fixed = g x.ltu.fixed := congrArg g hx.tables
  exact ⟨field (·.1.cells), field (·.1.pool), field (·.1.service), field (·.2)⟩

theorem Ltu.restarted_serials (l : Ltu) : l.restarted.volumes.map (fun v => v.serial) = l.volumes.map
    (fun v => v.serial) := by
  change (l.volumes.map Volume.restarted).map _ = _
  rw [List.map_map]
  exact List.map_congr_left fun v _ => v.restarted_keeps.1

/-- A volume of the table after a RESTART (R26, R192). -/
theorem Plant.vol?_afterRestart (hc : Closes e cs us a b x y) (ht : t.ltu = y.ltu.restarted) {q : Serial} {v : Volume}
    (hv : x.vol? q = some v) :
    t.vol? q = some ((Volume.closedAt e.set.mountLimit)^[(cs.filter fun c => c.2.1.serial = some q).length] v).restarted := by
  rw [Plant.vol?_map (x := y) (congrArg Ltu.volumes ht) fun v => v.restarted_keeps.1, hc.volumes, hv]
  rfl

theorem volume_afterRestart (hc : Closes e cs us a b x y) (hs : cs.Pairwise (fun c d => c.1 < d.1))
    (ht : t.ltu = y.ltu.restarted) {q : Serial} {v : Volume} (hv : x.vol? q = some v) :
    ∃ w, t.vol? q = some w
      ∧ w = { v with bound := none, loc := w.loc, misfiled := w.misfiled, refilePending := w.refilePending,
                     mounts := w.mounts, footage := w.footage, worn := w.worn }
      ∧ (((∃ a, v.loc = .gripper a) ∨ ∃ r, v.loc = .handoff r) →
          w.loc = .unknown ∧ w.misfiled = false ∧ w.refilePending = false)
      ∧ ((∃ n, v.loc = .entry n) → w.loc = .outside ∧ w.misfiled = false ∧ w.refilePending = false)
      ∧ ((∀ a, v.loc ≠ .gripper a) → (∀ r, v.loc ≠ .handoff r) → (∀ n, v.loc ≠ .entry n) →
          w.loc = v.loc ∧ w.misfiled = v.misfiled ∧ w.refilePending = v.refilePending)
      ∧ ((∀ c ∈ cs, c.2.1.serial ≠ some q) → w.mounts = v.mounts ∧ w.footage = v.footage ∧ w.worn = v.worn)
      ∧ ∀ c ∈ cs, c.2.1.serial = some q → (∀ d ∈ cs, d.2.1.serial = some q → d = c) →
          w.mounts = min 65535 (v.mounts + 1) ∧ w.footage = min 4294967295 v.footage
          ∧ (w.worn = true ↔ (v.worn = true ∨ (e.set.mountLimit ≠ 0 ∧ e.set.mountLimit ≤ w.mounts))) := by
  refine ⟨_, Plant.vol?_afterRestart hc ht hv, ?_⟩
  generalize hn : (cs.filter fun c => c.2.1.serial = some q).length = n
  obtain ⟨m, f, k, hu⟩ := Volume.closedAt_iterate e.set.mountLimit n v
  obtain ⟨hrec, hgrip, hentry, hrest⟩ := ((Volume.closedAt e.set.mountLimit)^[n] v).restarted_record
  have hloc : ((Volume.closedAt e.set.mountLimit)^[n] v).loc = v.loc := by rw [hu]
  have hmis : ((Volume.closedAt e.set.mountLimit)^[n] v).misfiled = v.misfiled := by rw [hu]
  have hpend : ((Volume.closedAt e.set.mountLimit)^[n] v).refilePending = v.refilePending := by rw [hu]
  rw [hloc] at hgrip hentry hrest
  rw [hmis, hpend] at hrest
  have counts : ((Volume.closedAt e.set.mountLimit)^[n] v).restarted.mounts = ((Volume.closedAt e.set.mountLimit)^[n] v).mounts
      ∧ ((Volume.closedAt e.set.mountLimit)^[n] v).restarted.footage = ((Volume.closedAt e.set.mountLimit)^[n] v).footage
      ∧ ((Volume.closedAt e.set.mountLimit)^[n] v).restarted.worn = ((Volume.closedAt e.set.mountLimit)^[n] v).worn := by
    rw [hrec]
    exact ⟨rfl, rfl, rfl⟩
  refine ⟨?_, hgrip, hentry, hrest, fun hno => ?_, fun c hcs hq huq => ?_⟩
  · rw [hrec, hu]
  · have h0 : n = 0 := by
      rw [← hn, List.length_eq_zero_iff, List.filter_eq_nil_iff]
      exact fun c hc => by simpa using hno c hc
    subst h0
    exact counts
  · have h1 : n = 1 := by rw [← hn, closes_unique hs hcs hq huq]; rfl
    subst h1
    obtain ⟨hm, hf, hw⟩ := counts
    rw [hm, hf, hw]
    exact ⟨rfl, rfl, Volume.closedAt_worn _ v⟩

/-- The usage records and the accounts after a RESTART (R192). -/
theorem accounts_afterRestart (hc : Closes e cs us a b x y) (i : Fin 256) (l : List Usage)
    (hl : l = us.filter fun u => u.account.toFin = i) :
    (l = [] → b.accounts.get i = a.accounts.get i)
      ∧ (l ≠ [] →
        (b.accounts.get i).total = min 4294967295 ((a.accounts.get i).total + (l.map fun u => u.charge).sum)
        ∧ (b.accounts.get i).mounts = min 65535 ((a.accounts.get i).mounts + l.length)
        ∧ (b.accounts.get i).occupancy = min 4294967295 ((a.accounts.get i).occupancy +
            (l.map fun u => u.occupancy).sum)) := by
  rw [hc.accounts i, ← hl]
  exact ⟨fun h => by rw [h]; rfl, fun h => Account.closedBy_sums _ h⟩

end Restart

end Sys2Proof.Machine
end

section
/-!
SUPPORT. LIBRARY START taken, and what a RESTART has made once the tasks have ended (R226, R227).
-/
namespace Sys2Proof.Machine

/-- A drive's entry after a RESTART, its mount closed on the way (R132). -/
theorem drive_afterRestart {r p q : Drive}
    (hp : ∃ f b, p = { r with footage := f, mountOpen := b } ∧ (r.footage ≤ 4294967295 → f = r.footage))
        (hq : q = p.restarted) :
    q = { r with state := q.state, preFault := q.preFault, volume := q.volume, bound := none, mountOpen := false,
                 footage := q.footage, offlinePending := q.offlinePending, rethreadDone := q.rethreadDone,
                 unloadSeen := q.unloadSeen }
      ∧ (r.footage ≤ 4294967295 → q.footage = r.footage)
      ∧ (p.state = r.state ∧ p.preFault = r.preFault ∧ p.volume = r.volume ∧ p.unloadSeen = r.unloadSeen
        ∧ p.offlinePending = r.offlinePending) := by
  obtain ⟨f, b, hp, hf⟩ := hp
  have hk := hq.trans p.restarted_keeps
  rw [← hq] at hk
  refine ⟨?_, fun hr => ?_, ?_⟩
  · rw [hk, hp]
  · rw [hk, hp]
    exact hf hr
  · rw [hp]
    exact ⟨rfl, rfl, rfl, rfl, rfl⟩

theorem Drive.eff_congr {p r : Drive} (hs : p.state = r.state) (hp : p.preFault = r.preFault) : p.eff = r.eff := by
  simp only [Drive.eff, hs, hp]

/-- The racks after a RESTART (R26, R113). -/
theorem racks_afterRestart {x y t : Plant} (hs : y.ltu.service = x.ltu.service) (hh : y.mou = x.mou)
    (ht : t.ltu = y.ltu.restarted) (hm : t.mou.handoff = y.mou.restarted.handoff) :
    (∀ n, t.entry n = Slot.clear)
      ∧ (∀ n, ((x.service n).state = .occupied → t.service n = { x.service n with task := none })
          ∧ ((x.service n).state ≠ .occupied → t.service n = Slot.clear))
      ∧ ∀ r, ((x.handoff r).state = .occupied →
            t.handoff r = { state := .occupied, content := some .unknown, task := none })
          ∧ ((x.handoff r).state ≠ .occupied → t.handoff r = Slot.clear) := by
  have service : ∀ n, t.service n = (x.service n).restarted := fun n => by
    rw [Plant.service, ht, ← Plant.service_congr hs n]
    exact get_map Slot.restarted y.ltu.service n
  have handoff : ∀ r, t.handoff r = (x.handoff r).handoffRestarted := fun r => by
    rw [Plant.handoff, hm, ← Plant.handoff_congr hh r]
    exact get_map Slot.handoffRestarted y.mou.handoff r
  refine ⟨fun n => ?_, fun n => ?_, fun r => ?_⟩
  · rw [Plant.entry, ht]
    exact get_replicate Slot.clear n
  · rw [service]
    exact ⟨Slot.restarted_occupied, Slot.restarted_other⟩
  · rw [handoff]
    exact ⟨Slot.handoffRestarted_occupied, Slot.handoffRestarted_other⟩

/-- LIBRARY START in LOADING (R101, R226). -/
theorem exec_libraryStart_starts {h : Hdr} {s : State} (hs : s.manages h) (hl : s.plant.mgu.lib = .loading) :
    ∃ m o, exec (.libraryStart h) s = .next (({ s with plant := { s.plant with
          mgu := { s.plant.mgu with lib := .running }, mou := m, out := o } } : State).replied h .accepted .nothing)
      ∧ m.accA.state = .recovering ∧ m.accB.state = .recovering ∧ m.holder = s.plant.mou.holder
      ∧ m.queue = s.plant.mou.queue ∧ m.handoff = s.plant.mou.handoff ∧ o.c = s.plant.out.c
      ∧ (s.env.held = true → m.accA.recoverDue = true ∧ m.accB.recoverDue = true ∧ o.m = s.plant.out.m)
      ∧ (s.env.held = false → ∀ ka kb, ka = .recover (decide (s.plant.mou.holder ≠ some .A)) 47 →
          kb = .recover (decide (s.plant.mou.holder ≠ some .B)) 80 →
          o.m = s.plant.out.m ++ [.step .A ka s.plant.mou.accA.nextTag, .step .B kb s.plant.mou.accB.nextTag]
          ∧ m.accA.step = some { kind := ka, tag := s.plant.mou.accA.nextTag, deadline := s.env.tick + 100 }
          ∧ m.accB.step = some { kind := kb, tag := s.plant.mou.accB.nextTag, deadline := s.env.tick + 100 }) := by
  obtain ⟨m, o, hr, hm, hc, hheld, hsent⟩ :=
    Plant.recover_both s.env { s.plant with mgu := { s.plant.mgu with lib := .running } }
  have kind : ∀ a, Plant.recovery a { s.plant with mgu := { s.plant.mgu with lib := .running } }
      = .recover (decide (s.plant.mou.holder ≠ some a)) (retreatBay a) := fun a => by simp [Plant.recovery]
  have states : m.accA.state = .recovering ∧ m.accB.state = .recovering := by
    cases hh : s.env.held with
    | true => obtain ⟨hA, hB, -⟩ := hheld hh; rw [hA, hB]; exact ⟨rfl, rfl⟩
    | false => obtain ⟨hA, hB, -⟩ := hsent hh; rw [hA, hB]; exact ⟨rfl, rfl⟩
  refine ⟨m, o, (exec_libraryStart_taken hs hl rfl).trans
      (by rw [hr]), states.1, states.2, by rw [hm], by rw [hm], by rw [hm], hc,
    fun hh => ?_, fun hh ka kb hka hkb => ?_⟩
  · obtain ⟨hA, hB, ho⟩ := hheld hh
    rw [hA, hB]
    exact ⟨rfl, rfl, ho⟩
  · obtain ⟨hA, hB, ho⟩ := hsent hh
    have hA' := (kind .A).trans hka.symm
    have hB' := (kind .B).trans hkb.symm
    rw [hA, hB, ho, hA', hB']
    exact ⟨rfl, rfl, rfl⟩

/-! ### RESTART, block by block (R227) -/

/-- What a RESTART has made of a state's plant once the tasks have ended and the queues are flushed: the frames `l` of the
tasks and then those of the queues, `m` on the M-link, the records `us` in the accounts `b` (R34, R54, R192). -/
structure State.TasksEnded (s : State) (us : List Usage) (b : Acu) (z : Plant) (l : List CFrame)
    (m : List MFrame) : Prop where
  onC : z.out.c = s.plant.out.c ++ (l ++ (s.queueFrames ++ s.paceFrames))
  onM : z.out.m = s.plant.out.m ++ m
  orders : ∀ f ∈ l, f.isPath = false
  shows : ∀ f ∈ m, f.moves = false
  told : ∀ n k, s.plant.task? n = some k → k.finalFrames ++ k.requesterFrames ⊆ l
  library : z.mgu.lib = .restarting ∧ z.mgu.ansA = false ∧ z.mgu.ansB = false
  flags : ∀ i, i ≠ EventFlag.acctReady.index → i ≠ EventFlag.accountSaturated.index →
    i ≠ EventFlag.promptBacklog.index → z.mgu.flags.get i = s.plant.mgu.flags.get i
  cells : z.ltu.cells = s.plant.ltu.cells
  pool : z.ltu.pool = s.plant.ltu.pool
  service : z.ltu.service = s.plant.ltu.service
  serials : z.ltu.volumes.map (fun v => v.serial) = s.plant.ltu.volumes.map (fun v => v.serial)
  motion : z.mou = s.plant.mou
  audits : z.adu = s.plant.adu
  tasks : ∀ n, z.task? n = none
  requests : z.tcu.requests = [] ∧ z.tcu.rackFull = false
  drives : ∀ d, ∃ f b, z.drive d = { s.plant.drive d with footage := f, mountOpen := b }
    ∧ ((s.plant.drive d).footage ≤ 4294967295 → f = (s.plant.drive d).footage)
  closed : Closes s.env ((List.finRange 48).filterMap s.plant.closeOf) us s.acu b s.plant z

/-- A state once a RESTART has emptied its queues, with the accounts and the plant that it leaves. -/
def State.leftWith (b : Acu) (t : Plant) (s : State) : State :=
  { s with acu := b, plant := t, oiu := { s.oiu with queues := Vector.replicate 4 [], paced := Vector.replicate 4 false } }

/-- A RESTART is the end of the tasks and the queues, the blocks' own restart, and ACCEPTED. -/
theorem exec_restart_restarts {h : Hdr} {s : State} (hs : s.manages h)
    (hl : s.plant.mgu.lib = .running ∨ s.plant.mgu.lib = .restarting) :
    ∃ us b z l m t, exec (.restart h) s = .next
        ((s.leftWith b t).accept h) ∧ s.TasksEnded us b z l m ∧ Plant.BlocksRestarted s.env z t := by
  obtain ⟨us, b, y, hy, hx, hc, hreq⟩ := restartTasks_ended s.env s.acu s.plant.restarting
  obtain ⟨l, m, hmade, hends⟩ := hx.made
  obtain ⟨hcells, hpool, hservice, hserials⟩ := hx.fields
  refine ⟨us, b, { y with out.c := y.out.c ++ (s.queueFrames ++ s.paceFrames) }, l, m, _, exec_restart_taken hs hl hy rfl, ?_,
    Plant.restartBlocks_restarted s.env _⟩
  exact
  { onC := (congrArg (· ++ _) hmade.onC).trans (List.append_assoc ..)
    onM := hmade.onM
    orders := hmade.orders
    shows := hmade.shows
    told := fun n => hends n (List.mem_finRange n)
    library := hx.library
    flags := hx.flags
    cells := hcells
    pool := hpool
    service := hservice
    serials := hserials
    motion := hx.motion
    audits := hx.audits
    tasks := fun n => (hx.tasks n).trans (if_pos (List.mem_finRange n))
    requests := hreq
    drives := hx.drives
    closed := ⟨hc.buffer, hc.usages, hc.accounts, hc.volumes⟩ }

section Clauses
variable {s : State} {us : List Usage} {b : Acu} {z t : Plant} {l : List CFrame} {m : List MFrame}

theorem State.TasksEnded.told_order (hz : s.TasksEnded us b z l m) {n : TaskNo} {k : Task} {p : Path} {g : Byte}
    (hk : s.plant.task? n = some k) (ho : k.origin = .path p g) (ha : k.answered = false) :
    CFrame.status p (some g) .last (.ended .libraryRestarted k.tags) ∈ l :=
  hz.told n k hk (List.mem_append_left _ (by simp [Task.finalFrames, ho, ha]))

theorem State.TasksEnded.told_requester (hz : s.TasksEnded us b z l m) {n : TaskNo} {k : Task} {p : Path} {g : Byte}
    (hk : s.plant.task? n = some k) (hr : k.requester = some (p, g)) :
    CFrame.status p (some g) .last (.dismountEnded .libraryRestarted (k.drive.getD 0)) ∈ l :=
  hz.told n k hk (List.mem_append_right _ (by simp [Task.requesterFrames, hr]))

/-- The RESUMEs of a RESTART go to the PACED paths and to no other (R34). -/
theorem State.TasksEnded.resumes (hz : s.TasksEnded us b z l m) (p : Path) :
    CFrame.status p none .path .resume ∈ l ++ (s.queueFrames ++ s.paceFrames) ↔ s.oiu.paced.get p = true := by
  have hl : CFrame.status p none .path .resume ∉ l := fun hf => by simpa [CFrame.isPath] using hz.orders _ hf
  simp [hl, State.mem_queueFrames, State.mem_paceFrames]

/-- The drives' clauses of a RESTART (R132). -/
theorem State.TasksEnded.drive_restarts (hz : s.TasksEnded us b z l m) (ht : Plant.BlocksRestarted s.env z t)
    {d : DriveNo}
    {r q : Drive} (hr : r = s.plant.drive d) (hq : q = t.drive d) :
    q = { r with state := q.state, preFault := q.preFault, volume := q.volume, bound := none, mountOpen := false,
                 footage := q.footage, offlinePending := q.offlinePending, rethreadDone := q.rethreadDone,
                 unloadSeen := q.unloadSeen }
      ∧ (r.footage ≤ 4294967295 → q.footage = r.footage)
      ∧ ((r.state = .empty ∨ r.state = .offline ∨ r.state = .absent ∨ r.state = .heldReel) →
          q.state = r.state ∧ q.volume = r.volume ∧ q.unloadSeen = r.unloadSeen ∧ q.offlinePending = r.offlinePending)
      ∧ (r.state = .reserved → q.volume = none ∧ q.unloadSeen = false ∧ q.offlinePending = false
          ∧ q.state = if r.offlinePending then .offline else .empty)
      ∧ (r.state = .cleanDue → q.state = .cleanDue ∧ q.volume = none ∧ q.offlinePending = r.offlinePending)
      ∧ ((r.state = .threading ∨ r.state = .mounted ∨ r.state = .unloading ∨ r.state = .unloaded) →
          q.state = .heldReel ∧ q.volume = r.volume ∧ q.offlinePending = r.offlinePending
          ∧ (r.state = .threading → q.unloadSeen = r.unloadSeen)
          ∧ ((r.state = .mounted ∨ r.state = .unloading) → q.unloadSeen = false)
          ∧ (r.state = .unloaded → q.unloadSeen = true))
      ∧ (r.state = .faulted → q.state = .faulted ∧ q.offlinePending = r.offlinePending
          ∧ (r.preFault = some .reserved → q.preFault = some .empty ∧ q.volume = none)
          ∧ ((r.preFault = some .threading ∨ r.preFault = some .mounted ∨ r.preFault = some .unloading
              ∨ r.preFault = some .unloaded) → q.preFault = some .heldReel ∧ q.volume = r.volume)
          ∧ ((r.preFault = some .empty ∨ r.preFault = some .heldReel ∨ r.preFault = some .cleanDue) →
              q.preFault = r.preFault)) := by
  have hp : q = (z.drive d).restarted := hq.trans (ht.drives d)
  obtain ⟨hkeep, hfoot, hst, hpf, hvol, hseen, hpend⟩ := drive_afterRestart (hr ▸ hz.drives d) hp
  obtain ⟨hrest, hres, hclean, hreel⟩ := Drive.restarted_working hp
  have hfault := Drive.restarted_faulted hp
  rw [hst, hpf, hvol, hpend] at hfault
  rw [hst, hvol, hseen, hpend] at hrest hreel
  rw [hst, hpend] at hres hclean
  exact ⟨hkeep, hfoot, hrest, hres, hclean, hreel, hfault⟩

theorem State.TasksEnded.eff (hz : s.TasksEnded us b z l m) (d : DriveNo) : (z.drive d).eff =
    (s.plant.drive d).eff := by
  obtain ⟨-, -, hst, hpf, -⟩ := drive_afterRestart (hz.drives d) rfl
  exact Drive.eff_congr hst hpf

/-- The drives that a RESTART sends UNLOAD (R132). -/
theorem State.TasksEnded.unloads (hz : s.TasksEnded us b z l m) (d : DriveNo) :
    (z.drive d).unloads ↔ (s.plant.drive d).unloadSeen = false
      ∧ ((s.plant.drive d).state = .threading
        ∨ ((s.plant.drive d).state = .faulted ∧ (s.plant.drive d).preFault = some .threading)) := by
  obtain ⟨-, -, -, -, -, hseen, -⟩ := drive_afterRestart (hz.drives d) rfl
  rw [Drive.unloads, hz.eff, hseen, Drive.eff_iff _ (by simp) (by simp), and_comm]

/-- What a RESTART sends on the M-link: the RECOVERs, unless a hold is in force, and the UNLOADs (R101, R113, R132). -/
theorem State.TasksEnded.moves (hz : s.TasksEnded us b z l m) (ht : Plant.BlocksRestarted s.env z t) :
    ∃ n, t.out.m = s.plant.out.m ++ n ∧ (s.env.held = true → ∀ a k g, MFrame.step a k g ∉ n)
      ∧ (s.env.held = false → ∃ u v, n = u ++ .step .A (.recover true 47) s.plant.mou.accA.nextTag
            :: .step .B (.recover true 80) s.plant.mou.accB.nextTag :: v
          ∧ ∀ a k g, MFrame.step a k g ∉ u ++ v)
      ∧ ∀ d, MFrame.drive d .unload ∈ n ↔ (z.drive d).unloads := by
  obtain ⟨k, v, hm, hheld, hsent, hsteps, hdrives⟩ := ht.onM
  have steps : ∀ a j g, MFrame.step a j g ∉ m := fun a j g hf => by simpa [MFrame.moves] using hz.shows _ hf
  have drives : ∀ d, MFrame.drive d .unload ∉ m := fun d hf => by simpa [MFrame.moves] using hz.shows _ hf
  have quiet : ∀ d, MFrame.drive d .unload ∉ k := fun d => by
    cases h : s.env.held with
    | true => rw [hheld h]; simp
    | false => rw [hsent h]; simp
  refine ⟨m ++ (k ++ v), by rw [hm, hz.onM, List.append_assoc], fun h a j g => ?_, fun h => ⟨m, v, ?_, fun a j g => ?_⟩,
    fun d => ?_⟩
  · rw [hheld h]
    simp [steps, hsteps]
  · rw [hsent h, hz.motion]
    rfl
  · simp [steps, hsteps]
  · simp [drives, quiet, hdrives]

end Clauses

end Sys2Proof.Machine
end

section
/-!
PROOFS. LIBRARY START and RESTART (R226, R227; O46).
-/
namespace Sys2Proof.Machine

section Clauses
variable {s : State} {us : List Usage} {b : Acu} {z t : Plant} {l : List CFrame} {m : List MFrame}

/-- An accessor after a RESTART (R101, R113). -/
theorem State.TasksEnded.acc_restarts (hz : s.TasksEnded us b z l m) (ht : Plant.BlocksRestarted s.env z t) (a : Acc) :
    ((t.acc a).state = .recovering ∧ (t.acc a).bay = none ∧ (t.acc a).gripper = .notKnown ∧ (t.acc a).leg = none
        ∧ (t.acc a).errand = none ∧ (t.acc a).late = (s.plant.acc a).late
        ∧ (t.acc a).lastFault = (s.plant.acc a).lastFault)
      ∧ (s.env.held = true →
        (t.acc a).recoverDue = true ∧ (t.acc a).step = none ∧ (t.acc a).nextTag = (s.plant.acc a).nextTag)
      ∧ (s.env.held = false →
        (t.acc a).recoverDue = false ∧ (t.acc a).nextTag = (s.plant.acc a).nextTag + 1
        ∧ (t.acc a).step
          = some ⟨.recover true (if a = .A then 47 else 80), (s.plant.acc a).nextTag, s.env.tick + 100⟩) := by
  have hacc : z.acc a = s.plant.acc a := Plant.acc_congr hz.motion a
  have bay : retreatBay a = if a = .A then 47 else 80 := by cases a <;> rfl
  cases h : s.env.held with
  | true =>
    rw [ht.held h a, hacc]
    exact ⟨⟨rfl, rfl, rfl, rfl, rfl, rfl, rfl⟩, fun _ => ⟨rfl, rfl, rfl⟩, fun h => absurd h (by simp)⟩
  | false =>
    rw [ht.sent h a, hacc, bay]
    exact ⟨⟨rfl, rfl, rfl, rfl, rfl, rfl, rfl⟩, fun h => absurd h (by simp), fun _ => ⟨rfl, rfl, rfl⟩⟩

/-- The prompts after a RESTART: the CLEAN prompts of the CLEAN-DUE drives (R132, R170). -/
theorem State.TasksEnded.prompts_restart (hz : s.TasksEnded us b z l m) (ht : Plant.BlocksRestarted s.env z t) :
    (∀ p ∈ t.pru.table, ∃ d, p.kind = .clean ∧ p.owner = .drive d ∧ p.params = { drive := some d }
        ∧ ((s.plant.drive d).state = .cleanDue
          ∨ ((s.plant.drive d).state = .faulted ∧ (s.plant.drive d).preFault = some .cleanDue)))
      ∧ ∀ d, (s.plant.drive d).state = .cleanDue → ∃ p ∈ t.pru.table, p.kind = .clean ∧ p.owner = .drive d := by
  have due : ∀ d, (z.drive d).eff = .cleanDue ↔ (s.plant.drive d).state = .cleanDue
      ∨ ((s.plant.drive d).state = .faulted ∧ (s.plant.drive d).preFault = some .cleanDue) := fun d => by
    rw [hz.eff, Drive.eff_iff _ (by simp) (by simp)]
  refine ⟨fun p hp => ?_, fun d hd => ?_⟩
  · obtain ⟨d, hd, hk, ho, hv⟩ := ht.prompts p hp
    exact ⟨d, hk, ho, hv, (due d).mp hd⟩
  · obtain ⟨p, hp, hk, ho, -⟩ := ht.cleans d ((due d).mpr (.inl hd))
    exact ⟨p, hp, hk, ho⟩

/-- The cells after a RESTART: a reservation is given up (R26). -/
theorem State.TasksEnded.cells_restart (hz : s.TasksEnded us b z l m) (ht : Plant.BlocksRestarted s.env z t)
    (hs : s.plant.ltu.cells.Pairwise (fun r q => r.num < q.num)) (c : CellNo) :
    (t.cell c).homeOf = (s.plant.cell c).homeOf
      ∧ ((∃ r u, (s.plant.cell c).occ = .reserved r u) → (t.cell c).occ = .empty)
      ∧ ((∀ r u, (s.plant.cell c).occ ≠ .reserved r u) → (t.cell c).occ = (s.plant.cell c).occ) := by
  have hc : t.ltu.cells = s.plant.ltu.cells.filterMap CellRec.restarted := by
    rw [ht.tables, ← hz.cells]
    rfl
  obtain ⟨ho, hh⟩ := Plant.cell_restarted hs hc c
  rw [ho]
  exact ⟨hh, Occ.restarted_cases _⟩

end Clauses

/-- Settles O46: LIBRARY START recovers both accessors; RESTART ends every task with its mount closed, flushes the queues
and restarts the blocks, one after the other. -/
theorem libraryStartAndRestart : Obligations.LibraryStartAndRestart := by
  unfold Obligations.LibraryStartAndRestart
  refine ⟨fun h s hs => ⟨fun hl => exec_libraryStart_wrong hs (by rcases hl with e | e <;> simp [e]),
    exec_libraryStart_starts hs⟩, fun h s hs => ⟨exec_restart_wrong hs, fun hl closes hcl => ?_⟩⟩
  obtain ⟨us, b, z, l, m, t, hrun, hz, ht⟩ := exec_restart_restarts hs hl
  obtain ⟨n, hn, hheld, hsent, hunload⟩ := hz.moves ht
  obtain ⟨hclean, hdue⟩ := hz.prompts_restart ht
  obtain ⟨hentry, hservice, hhandoff⟩ := racks_afterRestart (x := s.plant) hz.service hz.motion ht.tables
    (by rw [ht.motion])
  have hmem : ∀ c, c ∈ (List.finRange 48).filterMap s.plant.closeOf ↔ closes c := fun c => by
    rw [hcl]; exact Plant.mem_closes
  have hsorted := s.plant.closes_sorted
  have acc := hz.acc_restarts ht
  obtain ⟨hqueue, hholder, hclaim, htenure, hexpired⟩ : t.mou.queue = [] ∧ t.mou.holder = none
      ∧ t.mou.claimant = none ∧ t.mou.tenureEnd = none ∧ t.mou.expired = false := by rw [ht.motion]; exact
          ⟨rfl, rfl, rfl, rfl, rfl⟩
  obtain ⟨hlib, hansA, hansB⟩ : t.mgu.lib = .restarting ∧ t.mgu.ansA = false ∧ t.mgu.ansB = false := by
    rw [ht.library]; exact hz.library
  have cells := hz.cells_restart ht
  refine ⟨(s.leftWith b t).accept h, l ++ (s.queueFrames ++ s.paceFrames), n, us,
    (List.finRange 48).filterMap s.plant.closeOf, hrun, rfl, rfl, ?_, hn, ⟨hlib, hansA, hansB, ?_⟩,
    ⟨?_, rfl, ?_, hz.resumes⟩,
    ⟨?_, ?_, ?_, ?_, ?_⟩, ⟨hmem, hsorted, hz.closed.buffer, hz.closed.usages, accounts_afterRestart hz.closed⟩,
    ⟨?_, ?_, ?_, cells, hentry, hservice, hhandoff⟩,
    ⟨fun a => (acc a).1, hqueue, hholder, hclaim, htenure, hexpired, ?_, ?_⟩, ?_,
    ⟨ht.waiting.1, ht.waiting.2, hclean, hdue⟩, ?_⟩
  · change t.out.c ++ [_] = _
    rw [ht.onC, hz.onC, ← List.append_assoc]
  · exact fun i h1 h2 h3 => (congrArg (fun g : Mgu => g.flags.get i) ht.library).trans (hz.flags i h1 h2 h3)
  · exact fun p => ⟨get_replicate [] p, get_replicate false p⟩
  · intro p o ho
    exact List.mem_append_right _ (List.mem_append_left _ (State.mem_queueFrames.mpr ⟨p, o, ho, rfl⟩))
  · exact fun u => (Plant.task?_congr ht.tasks u).trans (hz.tasks u)
  · exact (congrArg Tcu.requests ht.tasks).trans hz.requests.1
  · exact (congrArg Tcu.rackFull ht.tasks).trans hz.requests.2
  · exact fun u k p g hk ho ha => List.mem_append_left _ (hz.told_order hk ho ha)
  · exact fun u k p g hk hr => List.mem_append_left _ (hz.told_requester hk hr)
  · exact (congrArg (fun l : Ltu => l.volumes.map fun v => v.serial) ht.tables).trans
      ((Ltu.restarted_serials _).trans hz.serials)
  · exact (congrArg Ltu.pool ht.tables).trans hz.pool
  · intro q v hv
    obtain ⟨w, hw, hrec, hgrip, hent, hrest, hnone, hone⟩ := volume_afterRestart hz.closed hsorted ht.tables hv
    exact ⟨w, hw, hrec, hgrip, hent, hrest, fun hc => hnone fun c hcs => hc c ((hmem c).mp hcs),
      fun c hc hq hu => hone c ((hmem c).mpr hc) hq fun d hd => hu d ((hmem d).mp hd)⟩
  · refine fun hh => ⟨fun a => ?_, hheld hh⟩
    obtain ⟨-, hkept, -⟩ := acc a
    exact hkept hh
  · refine fun hh => ⟨fun a => ?_, hsent hh⟩
    obtain ⟨-, -, hsends⟩ := acc a
    obtain ⟨hsent, htag, hstep⟩ := hsends hh
    exact ⟨hsent, htag, fun f hf => hf ▸ hstep⟩
  · intro d r q hr hq
    obtain ⟨hkeep, hfoot, hrest, hres, hcd, hreel, hfault⟩ := hz.drive_restarts ht hr hq
    exact ⟨hkeep, hfoot, hrest, hres, hcd, hreel, hfault, by rw [hr, hunload]; exact hz.unloads d⟩
  · exact ht.audits.trans (by rw [hz.audits]; rfl)

end Sys2Proof.Machine
end
